-- ==== Sys2Proof/Word.lean ====
section
/-! DEFINITION. The widths of the framer's data (R12, R16): bytes, 16-bit fields, frames, the command word. -/

namespace Sys2Proof

/-- A frame byte (R12: "A byte is 8 bits"). -/
abbrev Byte := BitVec 8

/-- A 16-bit unsigned field: the span, CO2, UhUl (R16, R62). -/
abbrev Half := BitVec 16

/-- A frame is a sequence of 9 bytes, indexed from 0 in the order of the wire (R12, R61, R80). -/
abbrev Frame := Vector Byte 9

/-- The host command word: 19 bits, `cmd_op` in bits 2:0 and `cmd_span` above it (R80, R81; log 5). -/
abbrev CommandWord := BitVec 19

end Sys2Proof
end

