-- ==== Sys2Proof/Config.lean ====
section
/-! DEFINITION. What is fixed for one framer (the build parameters, R7 to R11) and what the spec leaves free
(the inputs of every cycle, R40): the free values are constants without a body, so no proof can see one. -/

namespace Sys2Proof

/-- The values of the input ports sampled at one rising edge of `clk` (R20 to R25). -/
structure Inputs where
  /-- `rst`: synchronous reset, active high (R20). -/
  rst : Bool
  /-- `cmd_valid`: the host offers an operation this cycle (R21). -/
  cmdValid : Bool
  /-- `cmd_op`: operation code (R21, R82). -/
  cmdOp : BitVec 3
  /-- `cmd_span`: unsigned span value (R21). -/
  cmdSpan : Half
  /-- `tx_ready`: the transmitter takes the offered byte at this edge (R22). -/
  txReady : Bool
  /-- `rx_valid`: the receiver delivers one byte this cycle (R23). -/
  rxValid : Bool
  /-- `rx_data`: the delivered byte (R23). -/
  rxData : Byte
  /-- `rx_timeout`: the channel ends the read (R23). -/
  rxTimeout : Bool
  /-- `ch_err`: the channel reports a channel-level failure (R24). -/
  chErr : Bool
  /-- `rsp_ready`: the host takes the result at this edge (R25). -/
  rspReady : Bool
deriving DecidableEq, Repr, Inhabited

/-- Every input at 0: nothing is offered, nothing is taken. -/
def Inputs.quiet : Inputs :=
  { rst := false, cmdValid := false, cmdOp := 0, cmdSpan := 0, txReady := false, rxValid := false
    rxData := 0, rxTimeout := false, chErr := false, rspReady := false }

/-- The build parameters (R7, R8, R10, R40), in the widths AW = 3 and BW = 24 that R10 fixes.
They are arguments of the model: State carries them and no step writes them (log 3). -/
structure Params where
  /-- `MAX_ATTEMPTS`: attempts per read operation, the first included; legal 1..7 (R7). -/
  maxAttempts : BitVec 3
  /-- `BACKOFF_CYCLES`: cycles in BACKOFF after each failed attempt; legal 0..2^24-1 (R8). -/
  backoffCycles : BitVec 24
deriving DecidableEq, Repr

/-- BACKOFF_CYCLES of the framer that State.reset describes. OPEN in the spec (R8): no body (log 3). -/
opaque Config.backoffCycles : BitVec 24

/-- The inputs of cycle `n` where no script fixes them: drawn freely each cycle (R40, 45_sequencer.md; log 2). -/
opaque Config.freeInputs : Nat → Inputs

/-- The byte offered on `tx_data` at a `tx_idx` above 8, which no run reaches: the spec's frame has no
such byte (R34; log 7). -/
opaque Config.frameByteBeyond : BitVec 4 → Byte

end Sys2Proof
end

