-- ==== Sys2Proof/Syntax.lean ====
section
/-! DEFINITION. The operations (R82, R83), one constructor per row of spec/opcode_table.json, and the spec's own
written notation for operation sequences (R92). -/

namespace Sys2Proof

/-- An operation as the host presents it. Every constructor carries `cmd_span`: the word has the field for every
code (R81), it is latched for every accepted non-reserved code (R33) and read by CAL_SPAN only. -/
inductive Instr where
  /-- READ_CO2, `cmd_op` = 000 (R180). -/
  | readCo2 (span : Half)
  /-- READ_ALL, `cmd_op` = 001 (R181). -/
  | readAll (span : Half)
  /-- CAL_ZERO, `cmd_op` = 010 (R182). -/
  | calZero (span : Half)
  /-- CAL_SPAN, `cmd_op` = 011 (R183). -/
  | calSpan (span : Half)
  /-- AUTOCAL_ON, `cmd_op` = 100 (R184). -/
  | autocalOn (span : Half)
  /-- AUTOCAL_OFF, `cmd_op` = 101 (R185). -/
  | autocalOff (span : Half)
  /-- The reserved code 110 (R83, R186). -/
  | op6 (span : Half)
  /-- The reserved code 111 (R83, R186). -/
  | op7 (span : Half)
deriving DecidableEq, Repr

/-- One operation line of the spec's notation, operands as written (R92). -/
inductive AsmOp where
  | readCo2
  | readAll
  | calZero
  /-- `CAL_SPAN <n>`, n in 0..65535. -/
  | calSpan (n : Nat)
  | autocalOn
  | autocalOff
  /-- `OP <k>`, k in 0..7. -/
  | op (k : Nat)
  /-- The pseudo-operation `SET_AUTOCAL <b>`, b in 0, 1. -/
  | setAutocal (b : Nat)
deriving DecidableEq, Repr

/-- One channel stimulus line of the spec's notation (R92). -/
inductive StimLine where
  /-- `tx: ready always` -/
  | txReadyAlways
  /-- `tx: ready at cycles <list>` -/
  | txReadyAt (cycles : List Nat)
  /-- `rx: <hex bytes> at cycle <n>, one per cycle` -/
  | rxBytesAt (bytes : List Byte) (n : Nat)
  /-- `rx: timeout at cycle <n>` -/
  | rxTimeoutAt (n : Nat)
  /-- `rx: silent` -/
  | rxSilent
  /-- `err: at cycle <n>` -/
  | errAt (n : Nat)
deriving DecidableEq, Repr

end Sys2Proof
end

