-- ==== Sys2Proof/WellFormed.lean ====
section
/-! DEFINITION. The checks on what is written or configured: the operand ranges of the notation (R92) and the
legal build parameters (R7, R8). -/

namespace Sys2Proof

/-- Every operation is well formed: each of the eight codes selects an operation or the defined ILLEGAL_OP result,
and each 16-bit span can be presented (R87, R91, R93). -/
def Instr.wellFormed : Instr → Bool
  | .readCo2 _ => true
  | .readAll _ => true
  | .calZero _ => true
  | .calSpan _ => true
  | .autocalOn _ => true
  | .autocalOff _ => true
  | .op6 _ => true
  | .op7 _ => true

/-- The operand ranges of the notation (R92): a span in 0..65535, a code in 0..7, a switch in 0, 1. -/
def AsmOp.wellFormed : AsmOp → Bool
  | .readCo2 => true
  | .readAll => true
  | .calZero => true
  | .calSpan n => decide (n ≤ 65535)
  | .autocalOn => true
  | .autocalOff => true
  | .op k => decide (k ≤ 7)
  | .setAutocal b => decide (b ≤ 1)

/-- Legal build parameters: MAX_ATTEMPTS in 1..7 (R7). Every 24-bit BACKOFF_CYCLES is legal (R8). -/
def Params.legal (p : Params) : Bool := p.maxAttempts != 0

end Sys2Proof
end

