-- ==== Sys2Proof/Decode.lean ====
section
/-! DEFINITION. From command words to operations (R81, R82, R93) and back, and from the written notation to
operations (R92). -/

namespace Sys2Proof

/-- Decoding a command word presented on the ports: `cmd_op` alone selects the operation (R93). -/
def decodeCw (op : BitVec 3) (span : Half) : Instr :=
  match op with
  | 0 => .readCo2 span
  | 1 => .readAll span
  | 2 => .calZero span
  | 3 => .calSpan span
  | 4 => .autocalOn span
  | 5 => .autocalOff span
  | 6 => .op6 span
  | _ => .op7 span

/-- `cmd_op` of an operation (R82). -/
def Instr.opcode : Instr → BitVec 3
  | .readCo2 _ => 0b000
  | .readAll _ => 0b001
  | .calZero _ => 0b010
  | .calSpan _ => 0b011
  | .autocalOn _ => 0b100
  | .autocalOff _ => 0b101
  | .op6 _ => 0b110
  | .op7 _ => 0b111

/-- `cmd_span` of an operation (R81). -/
def Instr.span : Instr → Half
  | .readCo2 n => n
  | .readAll n => n
  | .calZero n => n
  | .calSpan n => n
  | .autocalOn n => n
  | .autocalOff n => n
  | .op6 n => n
  | .op7 n => n

/-- The 19-bit command word: `cmd_op` is bits 2:0, so `cmd_span` is bits 18:3 (R80, R81; log 5). -/
def decodeWord (w : CommandWord) : Instr :=
  decodeCw (w.extractLsb' 0 3) (w.extractLsb' 3 16)

/-- The command word of an operation (R81, R82). -/
def encode (i : Instr) : CommandWord := BitVec.ofNat 19 (i.span.toNat * 8 + i.opcode.toNat)

/-- Why a byte string is no command word. -/
inductive DecodeReject where
  /-- Fewer than the three bytes a 19-bit word takes. -/
  | tooFewBytes
  /-- More than three bytes. -/
  | tooManyBytes
  /-- A bit above bit 18 is set: the command word has 19 bits (R80). -/
  | bitAboveCommandWord
deriving DecidableEq, Repr

/-- The number three bytes hold, the lowest first. -/
def natOfBytes (b0 b1 b2 : Byte) : Nat := b0.toNat + b1.toNat * 2 ^ 8 + b2.toNat * 2 ^ 16

/-- The three bytes of a number below 2^24, the lowest first. -/
def bytesOfNat (n : Nat) : List Byte :=
  [BitVec.ofNat 8 n, BitVec.ofNat 8 (n / 2 ^ 8), BitVec.ofNat 8 (n / 2 ^ 16)]

/-- A command word written as bytes, the lowest bits first (log 5); total, rejecting by name. -/
def decodeBytes : List Byte → Except DecodeReject Instr
  | [b0, b1, b2] =>
    if natOfBytes b0 b1 b2 < 2 ^ 19 then .ok (decodeWord (BitVec.ofNat 19 (natOfBytes b0 b1 b2)))
    else .error .bitAboveCommandWord
  | _ :: _ :: _ :: _ :: _ => .error .tooManyBytes
  | _ => .error .tooFewBytes

/-- The three bytes of an operation's command word, the lowest bits first (log 5). -/
def encodeBytes (i : Instr) : List Byte := bytesOfNat (encode i).toNat

/-- The operation the decoder reads from a table word of `nbits` bits, the bits above them being 0. -/
def decodeTableWord (nbits w : Nat) : Option Instr :=
  let v := w % 2 ^ nbits
  if v < 2 ^ 24 then
    match decodeBytes (bytesOfNat v) with
    | .ok i => some i
    | .error _ => none
  else none

/-- The operation a line of the notation stands for; a line out of range stands for none (R92). -/
def AsmOp.assemble (a : AsmOp) : Option Instr :=
  if a.wellFormed then
    match a with
    | .readCo2 => some (.readCo2 0)
    | .readAll => some (.readAll 0)
    | .calZero => some (.calZero 0)
    | .calSpan n => some (.calSpan (BitVec.ofNat 16 n))
    | .autocalOn => some (.autocalOn 0)
    | .autocalOff => some (.autocalOff 0)
    | .op k => some (decodeCw (BitVec.ofNat 3 k) 0)
    | .setAutocal b => some (if b = 1 then .autocalOn 0 else .autocalOff 0)
  else none

end Sys2Proof
end

