-- ==== Sys2Proof/Machine/State.lean ====
section
/-! DEFINITION. The framer's registers (R30), the model's own fields beside them, reset (R46), and the reasons a
step could stop. -/

namespace Sys2Proof.Machine

/-- The FSM state register `st` (R31). The two codes no run reaches have a behaviour too (R222; log 6). -/
inductive Fsm where
  /-- 0b000: no operation in progress; ready to accept one. -/
  | idle
  /-- 0b001: sending the command frame, byte `tx_idx` is offered. -/
  | tx
  /-- 0b010: read window open; capturing response bytes. -/
  | rx
  /-- 0b011: one cycle: validating the captured response. -/
  | chk
  /-- 0b100: waiting after a failed attempt. -/
  | backoff
  /-- 0b101: result offered to the host. -/
  | done
  /-- 0b110: unreachable from reset. -/
  | code6
  /-- 0b111: unreachable from reset. -/
  | code7
deriving DecidableEq, Repr

/-- The result status (R89). Codes 6 and 7 are never produced and left out, as R89 allows. -/
inductive Status where
  /-- 0: no operation has completed since reset. -/
  | none
  /-- 1: a valid response was decoded. -/
  | ok
  /-- 2: every attempt failed. -/
  | absent
  /-- 3: the nine command bytes were transferred; no response is read. -/
  | sent
  /-- 4: `ch_err` ended the operation. -/
  | chanErr
  /-- 5: the operation code is reserved. -/
  | illegalOp
deriving DecidableEq, Repr

/-- The result field tuple of R166 and R214. -/
structure Fields where
  co2 : Half
  /-- 9-bit two's complement (R162). -/
  temp : BitVec 9
  tt : Byte
  ss : Byte
  uhul : Half
deriving DecidableEq, Repr

/-- The registers of R30 and, after them, the model's own fields (logs 2, 3, 4). -/
structure State where
  /-- `st` (R31). -/
  st : Fsm
  /-- `op_r`: the operation code last accepted (R32). -/
  opR : BitVec 3
  /-- `span_r` (R33). -/
  spanR : Half
  /-- `tx_idx`: the command-frame byte on offer (R34). -/
  txIdx : BitVec 4
  /-- `rx_cnt`: bytes captured in this window (R35). -/
  rxCnt : BitVec 4
  /-- `rxbuf[0..8]`: the response buffer (R36). -/
  rxbuf : Frame
  /-- `att`: the attempt in progress, from 1 (R37). -/
  att : BitVec 3
  /-- `bo_cnt`: backoff cycles still to wait (R38). -/
  boCnt : BitVec 24
  /-- `res_status` (R39). -/
  resStatus : Status
  /-- `res_co2` (R39). -/
  resCo2 : Half
  /-- `res_temp` (R39). -/
  resTemp : BitVec 9
  /-- `res_tt` (R39). -/
  resTt : Byte
  /-- `res_ss` (R39). -/
  resSs : Byte
  /-- `res_uhul` (R39). -/
  resUhul : Half
  /-- `res_att` (R39). -/
  resAtt : BitVec 3
  /-- The build parameters (R40); no step writes them (log 3). -/
  params : Params
  /-- The inputs of the coming cycles, this cycle's first; after the last, free draws (log 2). -/
  script : List Inputs
  /-- How many edges have passed; picks the free draw (log 2). -/
  cycle : Nat
  /-- The bytes transferred to the transmitter so far, oldest first; nothing reads it (log 4). -/
  sent : List Byte
deriving DecidableEq, Repr

/-- Reasons to stop with a fault: none. The framer raises no trap (R13) and Step is total (R200); every exceptional
outcome is a status in the result registers (R240). -/
inductive Fault
deriving DecidableEq, Repr

/-- Reasons to refuse an instruction. -/
inductive Refusal where
  /-- Raised by an arm of exec whose instruction has no meaning yet; no arm raises it. Safe: the machine stops. -/
  | notModelled (mnemonic : String)
deriving DecidableEq, Repr

/-- `ResetState` (R46). MAX_ATTEMPTS is the spec's default 5 (R7), BACKOFF_CYCLES stays open (R8; log 3); no input
is placed (log 2). -/
def State.reset : State :=
  { st := .idle, opR := 0, spanR := 0x0000, txIdx := 0, rxCnt := 0, rxbuf := Vector.replicate 9 0x00
    att := 0, boCnt := 0, resStatus := .none, resCo2 := 0x0000, resTemp := 0x000, resTt := 0x00
    resSs := 0x00, resUhul := 0x0000, resAtt := 0
    params := { maxAttempts := 5, backoffCycles := Config.backoffCycles }
    script := [], cycle := 0, sent := [] }

end Sys2Proof.Machine
end

