-- ==== Sys2Proof/Machine/Operands.lean ====
section
/-! DEFINITION. Operand assembly: the byte split and join of 16-bit fields (R62, R87), the checksum generator
(R110) and the command encoder (R121, R122). -/

namespace Sys2Proof.Machine

/-- `v[15:8]`, the byte at the lower frame index (R62, R87). -/
def hiByte (v : Half) : Byte := v.extractLsb' 8 8

/-- `v[7:0]` (R62, R87). -/
def loByte (v : Half) : Byte := v.extractLsb' 0 8

/-- `{hi, lo} = hi*256 + lo` (R12, R62). -/
def join16 (hi lo : Byte) : Half := BitVec.ofNat 16 (hi.toNat * 256 + lo.toNat)

/-- `sum(bytes)`, the integer sum (R12). -/
def byteSum : List Byte → Nat
  | [] => 0
  | b :: bs => b.toNat + byteSum bs

/-- `Checksum(bytes)` as the source writes it (R110). -/
def checksum (bytes : List Byte) : Byte :=
  let s := byteSum bytes % 256
  if s = 0 then 0x00 else BitVec.ofNat 8 (0xFF - s + 1)

/-- `CK4`, over command-frame bytes 1..4 of the span frame (R113, R125). -/
def ck4 (span : Half) : Byte := checksum [0x01, 0x88, hiByte span, loByte span]

/-- `CK7`, over response-frame bytes 1..7 (R113, R144). -/
def ck7 (buf : Frame) : Byte :=
  checksum [buf[1], buf[2], buf[3], buf[4], buf[5], buf[6], buf[7]]

/-- `CmdCode(op)` (R121). -/
def cmdCode (op : BitVec 3) : Byte :=
  match op with
  | 0 => 0x86
  | 1 => 0x86
  | 2 => 0x87
  | 3 => 0x88
  | 4 => 0x79
  | 5 => 0x79
  | _ => 0x00

/-- The read-measurement frame (R123). -/
def readFrame : Frame := #v[0xFF, 0x01, 0x86, 0x00, 0x00, 0x00, 0x00, 0x00, 0x79]

/-- The zero-calibration frame (R124). -/
def calZeroFrame : Frame := #v[0xFF, 0x01, 0x87, 0x00, 0x00, 0x00, 0x00, 0x00, 0x78]

/-- The span-calibration frame (R125). -/
def calSpanFrame (span : Half) : Frame :=
  #v[0xFF, 0x01, 0x88, hiByte span, loByte span, 0x00, 0x00, 0x00, ck4 span]

/-- The enable-auto-calibration frame (R126). -/
def autocalOnFrame : Frame := #v[0xFF, 0x01, 0x79, 0xA0, 0x00, 0x00, 0x00, 0x00, 0xE6]

/-- The disable-auto-calibration frame (R127). -/
def autocalOffFrame : Frame := #v[0xFF, 0x01, 0x79, 0x00, 0x00, 0x00, 0x00, 0x00, 0x86]

/-- The encoder's value for a reserved code, which no port ever shows (R129). -/
def reservedFrame : Frame := #v[0x00, 0x00, 0x00, 0x00, 0x00, 0x00, 0x00, 0x00, 0x00]

/-- `CmdFrame(op, span)` (R122). -/
def cmdFrame (op : BitVec 3) (span : Half) : Frame :=
  match op with
  | 0 => readFrame
  | 1 => readFrame
  | 2 => calZeroFrame
  | 3 => calSpanFrame span
  | 4 => autocalOnFrame
  | 5 => autocalOffFrame
  | _ => reservedFrame

/-- Byte `tx_idx` of a frame (R120). The frame has nine bytes; above 8 the value is free (log 7). -/
def frameByte (f : Frame) (idx : BitVec 4) : Byte :=
  if h : idx.toNat < 9 then f[idx.toNat] else Config.frameByteBeyond idx

end Sys2Proof.Machine
end

