-- ==== Sys2Proof/Machine/Flags.lean ====
section
/-! DEFINITION. The framer has no flags (R43): its conditions are the codes of `st` and of the result status, IsRead,
the reserved codes, and the response validator's one bit. -/

namespace Sys2Proof.Machine

/-- The 3-bit encoding of `st` (R31, R222). -/
def Fsm.code : Fsm → BitVec 3
  | .idle => 0b000
  | .tx => 0b001
  | .rx => 0b010
  | .chk => 0b011
  | .backoff => 0b100
  | .done => 0b101
  | .code6 => 0b110
  | .code7 => 0b111

/-- `st ∈ {TX, RX, CHK, BACKOFF}`, the source's "Awaiting Response" (R26, R45). -/
def Fsm.busy : Fsm → Bool
  | .idle => false
  | .tx => true
  | .rx => true
  | .chk => true
  | .backoff => true
  | .done => false
  | .code6 => false
  | .code7 => false

/-- The status code on `rsp_status` (R89). -/
def Status.code : Status → BitVec 3
  | .none => 0
  | .ok => 1
  | .absent => 2
  | .sent => 3
  | .chanErr => 4
  | .illegalOp => 5

/-- `IsRead(op)` (R82). -/
def isRead (op : BitVec 3) : Bool := op == 0b000 || op == 0b001

/-- `cmd_op ∈ {6, 7}` (R83). -/
def isReserved (op : BitVec 3) : Bool := op == 0b110 || op == 0b111

/-- `RespValid(cnt, buf)`: length, start byte, command code, checksum, and nothing else (R141 to R145, R148). -/
def respValid (cnt : BitVec 4) (buf : Frame) : Bool :=
  cnt == 9 && buf[0] == 0xFF && buf[1] == 0x86 && ck7 buf == buf[8]

end Sys2Proof.Machine
end

