-- ==== Sys2Proof/Machine/Measurement.lean ====
section
/-! DEFINITION. The measurement decoder (R160 to R167). -/

namespace Sys2Proof.Machine

/-- `temp9 = (byte4 - 40) mod 512`, computed on integers (R162). -/
def temp9 (b : Byte) : BitVec 9 := BitVec.ofInt 9 ((b.toNat : Int) - 40)

/-- The fields of READ_ALL (R161 to R166). -/
def fieldsAll (buf : Frame) : Fields :=
  { co2 := join16 buf[2] buf[3], temp := temp9 buf[4], tt := buf[4], ss := buf[5]
    uhul := join16 buf[6] buf[7] }

/-- The fields of READ_CO2: the CO2 value alone, every other field 0 (R166). -/
def fieldsCo2 (buf : Frame) : Fields :=
  { co2 := join16 buf[2] buf[3], temp := 0, tt := 0, ss := 0, uhul := 0 }

/-- `Decode(op, buf)` (R166). -/
def decodeFields (op : BitVec 3) (buf : Frame) : Fields :=
  if op = 0b001 then fieldsAll buf else fieldsCo2 buf

/-- `Zero`, the field tuple of every status other than OK (R167, R214). -/
def zeroFields : Fields := { co2 := 0, temp := 0, tt := 0, ss := 0, uhul := 0 }

end Sys2Proof.Machine
end

