-- ==== Sys2Proof/Machine/Ports.lean ====
section
/-! DEFINITION. The ports: how a state reads its inputs (R20 to R25), and the Moore outputs (R201). -/

namespace Sys2Proof.Machine

/-- The inputs of this cycle: the script's next, or a free draw where the script has ended (R40; log 2). -/
def State.inputs (s : State) : Inputs :=
  match s.script with
  | [] => Config.freeInputs s.cycle
  | inp :: _ => inp

/-- The edge has passed: this cycle's inputs are used up. -/
def State.tick (s : State) : State := { s with script := s.script.tail, cycle := s.cycle + 1 }

/-- The output ports (R21 to R26). -/
structure Outputs where
  cmdReady : Bool
  busy : Bool
  txValid : Bool
  txData : Byte
  rxOpen : Bool
  rspValid : Bool
  rspStatus : BitVec 3
  rspCo2 : Half
  rspTemp : BitVec 9
  rspTt : Byte
  rspSs : Byte
  rspUhul : Half
  rspAttempts : BitVec 3
deriving DecidableEq, Repr

/-- `tx_data`: byte `tx_idx` of the frame in TX, else 0x00 (R22, R201). -/
def State.txData (s : State) : Byte :=
  if s.st = .tx then frameByte (cmdFrame s.opR s.spanR) s.txIdx else 0x00

/-- The output equations (R201). -/
def State.outputs (s : State) : Outputs :=
  { cmdReady := s.st == .idle
    busy := s.st.busy
    txValid := s.st == .tx
    txData := s.txData
    rxOpen := s.st == .rx
    rspValid := s.st == .done
    rspStatus := s.resStatus.code
    rspCo2 := s.resCo2
    rspTemp := s.resTemp
    rspTt := s.resTt
    rspSs := s.resSs
    rspUhul := s.resUhul
    rspAttempts := s.resAtt }

/-- The result registers as one field tuple (R39). -/
def State.fields (s : State) : Fields :=
  { co2 := s.resCo2, temp := s.resTemp, tt := s.resTt, ss := s.resSs, uhul := s.resUhul }

end Sys2Proof.Machine
end

