-- ==== Sys2Proof/Machine/Ops.lean ====
section
/-! DEFINITION. The register operations the sequencer is made of: completing an operation, which is the framer's
taking of an exception (R214, R246), the result handshake, which is its return (R215, R247), reset (R202), and the
single register writes of the other rules. -/

namespace Sys2Proof.Machine

/-- `finish(status, f, n)`, the one way an operation completes (R214, R246). -/
def finish (status : Status) (f : Fields) (n : BitVec 3) (s : State) : State :=
  { s with
    resStatus := status, resCo2 := f.co2, resTemp := f.temp, resTt := f.tt, resSs := f.ss
    resUhul := f.uhul, resAtt := n, st := .done }

/-- The result is taken and the framer returns to IDLE; nothing is restored (R215, R247). -/
def takeResult (s : State) : State := { s with st := .idle }

/-- `ResetArm`: every register takes its value in ResetState (R202, R270). The parameters, the coming inputs and the
outside world's record are no registers and stay (R272; logs 2, 3, 4). -/
def resetRegisters (s : State) : State :=
  { State.reset with params := s.params, script := s.script, cycle := s.cycle, sent := s.sent }

/-- `ChanErrArm`: a channel-level failure ends the operation (R203, R242). -/
def chanErr (s : State) : State := finish .chanErr zeroFields s.att s

/-- A reserved code completes at once with ILLEGAL_OP; no other register changes (R205, R243). -/
def illegalOp (s : State) : State := finish .illegalOp zeroFields 0 s

/-- Accepting a non-reserved operation (R204). -/
def accept (op : BitVec 3) (span : Half) (s : State) : State :=
  { s with opR := op, spanR := span, txIdx := 0, att := 1, st := .tx }

/-- The transmitter takes a byte: the outside world's record of it (R22; log 4). -/
def transfer (b : Byte) (s : State) : State := { s with sent := s.sent ++ [b] }

/-- Offer the next byte of the frame (R206). -/
def nextByte (s : State) : State := { s with txIdx := s.txIdx + 1 }

/-- Open the read window (R207). -/
def openWindow (s : State) : State := { s with rxCnt := 0, st := .rx }

/-- Store a response byte at index `rx_cnt` and count it (R208). There is no entry above 8: such a write, which no
run makes, is dropped (log 8). -/
def capture (b : Byte) (s : State) : State :=
  { s with rxbuf := s.rxbuf.setIfInBounds s.rxCnt.toNat b, rxCnt := s.rxCnt + 1 }

/-- Close the read window (R209). -/
def closeWindow (s : State) : State := { s with st := .chk }

/-- Begin a backoff (R211). -/
def startBackoff (s : State) : State :=
  { s with boCnt := s.params.backoffCycles - 1, st := .backoff }

/-- One cycle of backoff has passed (R212). -/
def countBackoff (s : State) : State := { s with boCnt := s.boCnt - 1 }

/-- Start the next attempt: the whole frame is sent again (R213). -/
def retry (s : State) : State := { s with att := s.att + 1, txIdx := 0, st := .tx }

/-- An unreachable code in `st` goes to IDLE and changes no other register (R222). -/
def recover (s : State) : State := { s with st := .idle }

end Sys2Proof.Machine
end

