-- ==== Sys2Proof/Machine/Sequencer.lean ====
section
/-! DEFINITION. The arms of the step (R200, R203 to R215) and the cycle of one operation, shared by every
instruction's meaning. -/

namespace Sys2Proof.Machine

/-- `AfterBackoff(s)`: another attempt, or the absent result (R213). -/
def afterBackoff (s : State) : State :=
  if s.params.maxAttempts ≤ s.att then finish .absent zeroFields s.att s else retry s

/-- `Fail(s)`: an attempt has failed (R211). -/
def fail (s : State) : State :=
  if s.params.backoffCycles = 0 then afterBackoff s else startBackoff s

/-- The end of the frame: a read opens its window, a write-only operation is complete (R207). -/
def endFrame (reads : Bool) (s : State) : State :=
  if reads then openWindow s else finish .sent zeroFields s.att s

/-- `TxArm`: the byte of `frame` on offer is transferred when the transmitter is ready (R206, R207). -/
def txArm (reads : Bool) (frame : Frame) (s : State) : State :=
  if s.inputs.txReady then
    if s.txIdx < 8 then nextByte (transfer (frameByte frame s.txIdx) s)
    else endFrame reads (transfer (frameByte frame s.txIdx) s)
  else s

/-- The capture half of `RxArm` (R208). -/
def rxCapture (s : State) : State :=
  if s.inputs.rxValid then capture s.inputs.rxData s else s

/-- `RxArm`: capture first, then close the window on the ninth byte or the channel's timeout (R208, R209). -/
def rxArm (s : State) : State :=
  if (rxCapture s).rxCnt = 9 ∨ s.inputs.rxTimeout then closeWindow (rxCapture s) else rxCapture s

/-- `ChkArm`: `fields` is the operation's part of `Decode` (R210, R211). -/
def chkArm (fields : Frame → Fields) (s : State) : State :=
  if respValid s.rxCnt s.rxbuf then finish .ok (fields s.rxbuf) s.att s else fail s

/-- `BackoffArm` (R212). -/
def backoffArm (s : State) : State :=
  if s.boCnt = 0 then afterBackoff s else countBackoff s

/-- `DoneArm` (R215). -/
def doneArm (s : State) : State :=
  if s.inputs.rspReady then takeResult s else s

/-- A channel error goes before the arm of a busy state (R200, R203, R245). -/
def unlessChanErr (arm : State → State) (s : State) : State :=
  if s.inputs.chErr then chanErr s else arm s

/-- One cycle of an operation at the position `st` gives (R42, R200). `start` is what acceptance does; `reads`,
`frame` and `fields` are the operation's IsRead, CmdFrame and Decode. The result handshake ends the operation (R215). -/
def opCycle (start : State → State) (reads : Bool) (frame : Frame) (fields : Frame → Fields) (s : State) : State :=
  match s.st with
  | .idle => start s
  | .tx => unlessChanErr (txArm reads frame) s
  | .rx => unlessChanErr rxArm s
  | .chk => unlessChanErr (chkArm fields) s
  | .backoff => unlessChanErr backoffArm s
  | .done => doneArm s
  | .code6 => recover s
  | .code7 => recover s

/-- The operation of this cycle: the one the host presents in IDLE (R21, R93), the latched one while the framer is
busy (R32, R33); none otherwise. -/
def State.current (s : State) : Option Instr :=
  if s.st = .idle then
    if s.inputs.cmdValid then some (decodeCw s.inputs.cmdOp s.inputs.cmdSpan) else none
  else if s.st.busy then some (decodeCw s.opR s.spanR)
  else none

/-- A cycle with no operation to advance: IDLE waits (R204), DONE offers the result (R215), an unreachable code
recovers (R222). -/
def betweenOps (s : State) : State :=
  match s.st with
  | .done => doneArm s
  | .code6 => recover s
  | .code7 => recover s
  | .idle => s
  | .tx => s
  | .rx => s
  | .chk => s
  | .backoff => s

end Sys2Proof.Machine
end

