-- ==== Sys2Proof/Machine/Reads.lean ====
section
/-! DEFINITION. The read operations (R180, R181): ReadOp of 44_operations.md, one cycle at a time. -/

namespace Sys2Proof.Machine

/-- READ_CO2 (R180): frame R123, result the CO2 value alone (R166). -/
def execReadCo2 (span : Half) (s : State) : Host.Outcome State Fault Refusal :=
  .next (opCycle (accept 0b000 span) true readFrame fieldsCo2 s)

/-- READ_ALL (R181): the same frame, result every field (R166). -/
def execReadAll (span : Half) (s : State) : Host.Outcome State Fault Refusal :=
  .next (opCycle (accept 0b001 span) true readFrame fieldsAll s)

end Sys2Proof.Machine
end

