-- ==== Sys2Proof/Machine/Reserved.lean ====
section
/-! DEFINITION. The reserved codes (R83, R186): accepted, completed at once with ILLEGAL_OP (R205). They are never
latched (R129), so no busy state runs with one; there the arms of R200 hold with the encoder's value for them. -/

namespace Sys2Proof.Machine

/-- OP 6 (R186). Its `cmd_span` is ignored and not latched. -/
def execOp6 (_span : Half) (s : State) : Host.Outcome State Fault Refusal :=
  .next (opCycle illegalOp false reservedFrame fieldsCo2 s)

/-- OP 7 (R186). Its `cmd_span` is ignored and not latched. -/
def execOp7 (_span : Half) (s : State) : Host.Outcome State Fault Refusal :=
  .next (opCycle illegalOp false reservedFrame fieldsCo2 s)

end Sys2Proof.Machine
end

