-- ==== Sys2Proof/Machine/Writes.lean ====
section
/-! DEFINITION. The write-only operations (R182 to R185): WriteOp of 44_operations.md, one cycle at a time. No
response is read (R207); a write-only operation never reaches RX, CHK or BACKOFF (R47), where the arms of R200 hold
for it as for any operation. -/

namespace Sys2Proof.Machine

/-- CAL_ZERO (R182): frame R124. -/
def execCalZero (span : Half) (s : State) : Host.Outcome State Fault Refusal :=
  .next (opCycle (accept 0b010 span) false calZeroFrame fieldsCo2 s)

/-- CAL_SPAN (R183): frame R125 of its span, which is not range checked (R187). -/
def execCalSpan (span : Half) (s : State) : Host.Outcome State Fault Refusal :=
  .next (opCycle (accept 0b011 span) false (calSpanFrame span) fieldsCo2 s)

/-- AUTOCAL_ON (R184): frame R126. -/
def execAutocalOn (span : Half) (s : State) : Host.Outcome State Fault Refusal :=
  .next (opCycle (accept 0b100 span) false autocalOnFrame fieldsCo2 s)

/-- AUTOCAL_OFF (R185): frame R127. -/
def execAutocalOff (span : Half) (s : State) : Host.Outcome State Fault Refusal :=
  .next (opCycle (accept 0b101 span) false autocalOffFrame fieldsCo2 s)

end Sys2Proof.Machine
end

