-- ==== Sys2Proof/Machine/Dispatch.lean ====
section
/-! DEFINITION. One arm per operation. -/

namespace Sys2Proof.Machine

def exec (i : Instr) (s : State) : Host.Outcome State Fault Refusal :=
  match i with
  | .readCo2 span => Sys2Proof.Machine.execReadCo2 span s
  | .readAll span => Sys2Proof.Machine.execReadAll span s
  | .calZero span => Sys2Proof.Machine.execCalZero span s
  | .calSpan span => Sys2Proof.Machine.execCalSpan span s
  | .autocalOn span => Sys2Proof.Machine.execAutocalOn span s
  | .autocalOff span => Sys2Proof.Machine.execAutocalOff span s
  | .op6 span => Sys2Proof.Machine.execOp6 span s
  | .op7 span => Sys2Proof.Machine.execOp7 span s

end Sys2Proof.Machine
end

