-- ==== Sys2Proof/Machine/Step.lean ====
section
/-! DEFINITION. One rising edge of `clk`: the step of R200. -/

namespace Sys2Proof.Machine

/-- The edge has passed for whatever exec answered. -/
def ticked : Host.Outcome State Fault Refusal → Host.Outcome State Fault Refusal
  | .next s => .next s.tick
  | .fault r => .fault r
  | .refused r => .refused r

/-- `Step(s, in)` (R200): `rst` before everything (R202); else the operation of this cycle, whose meaning puts a
channel error before the state's own arm (R203); else a cycle between operations. -/
def step (s : State) : Host.Outcome State Fault Refusal :=
  if s.inputs.rst then .next (resetRegisters s).tick
  else match s.current with
    | some i => ticked (exec i s)
    | none => .next (betweenOps s).tick

/-- The host presents the command word `w` at the next edge, in IDLE and without a reset (R21, R204; log 10). -/
def State.withFetchWord (s : State) (nbits w : Nat) : State :=
  let cw := BitVec.ofNat 19 (w % 2 ^ nbits)
  { s with
    st := .idle
    script :=
      { s.script.headD Inputs.quiet with
        rst := false, cmdValid := true, cmdOp := cw.extractLsb' 0 3, cmdSpan := cw.extractLsb' 3 16 }
        :: s.script.tail }

end Sys2Proof.Machine
end

