-- ==== Sys2Proof/Machine/Parameters.lean ====
section
/-! DEFINITION. What the spec says about the build parameters' values (R7 to R11). -/

namespace Sys2Proof.Machine

/-- MAX_ATTEMPTS of the source: "5 attempts total" (R7). -/
def sourceMaxAttempts : BitVec 3 := 5

/-- `b = round(0.100 * f)` for a clock of `f` Hz (R8): a nearest whole number. DESIGN CHOICE (log 12): where two are
equally near, either will do, and `f` is a whole number of Hz; the spec says neither which, nor that F_CLK, "any
positive value" in 92_eei_decisions.md, is whole. -/
def isBackoffFor (f b : Nat) : Bool := decide (0 < f ∧ 10 * b ≤ f + 5 ∧ f ≤ 10 * b + 5)

/-- The framer without the retry FSM (R11). -/
def noRetry : Params := { maxAttempts := 1, backoffCycles := 0 }

end Sys2Proof.Machine
end

