-- ==== Sys2Proof/Safety.lean ====
section
/-! DEFINITION. What the claims are stated in: the invariants of R47 and of the result word, the course of one
operation, and running the machine for a number of edges. -/

namespace Sys2Proof.Machine

/-- The attempt number is one of a running operation: `1 <= att <= MAX_ATTEMPTS` (R37). -/
abbrev State.attInRange (s : State) : Prop := 1 ≤ s.att ∧ s.att ≤ s.params.maxAttempts

/-- R47, items 1 to 6 and 8, with the ranges of R30's table, for legal parameters (R7). -/
structure ControlInv (s : State) : Prop where
  legal : s.params.legal = true
  /-- R47.1 -/
  st_named : s.st ≠ .code6 ∧ s.st ≠ .code7
  /-- R47.2 -/
  op_range : s.opR < 6
  /-- R30, R34 -/
  tx_range : s.txIdx ≤ 8
  /-- R47.3 -/
  in_tx : s.st = .tx → s.attInRange
  /-- R207: an operation that reads no response is in its first attempt. -/
  in_tx_write : s.st = .tx → isRead s.opR = false → s.att = 1
  /-- R47.4 -/
  in_read : s.st = .rx ∨ s.st = .chk ∨ s.st = .backoff → isRead s.opR = true ∧ s.attInRange
  /-- R47.5 -/
  in_rx : s.st = .rx → s.rxCnt ≤ 8
  /-- R30, R35; R47.5 for CHK -/
  rx_range : s.rxCnt ≤ 9
  /-- R47.6 -/
  in_backoff : s.st = .backoff → 1 ≤ s.params.backoffCycles ∧ s.boCnt ≤ s.params.backoffCycles - 1
  /-- R30: 0 .. BACKOFF_CYCLES-1, or 0 -/
  bo_range : s.boCnt = 0 ∨ s.boCnt < s.params.backoffCycles
  /-- R30, R37 -/
  att_range : s.att ≤ s.params.maxAttempts
  /-- R47.8 -/
  res_att_range : s.resAtt ≤ s.params.maxAttempts

/-- What the result word may be (R47.7, R89, R90 and the callers of R214). -/
structure ResultInv (s : State) : Prop where
  /-- R90: every field is 0 unless the status is OK. -/
  fields_zero : s.resStatus ≠ .ok → s.fields = zeroFields
  /-- R47.7: until the next operation starts, an OK result is the decoding of the valid response still in the buffer. -/
  ok_valid : s.resStatus = .ok → s.st = .idle ∨ s.st = .done →
    isRead s.opR = true ∧ respValid s.rxCnt s.rxbuf = true ∧ s.fields = decodeFields s.opR s.rxbuf
      ∧ s.resAtt = s.att
  /-- R214: the attempt count of every status. -/
  ok_att : s.resStatus = .ok → 1 ≤ s.resAtt
  absent_att : s.resStatus = .absent → s.resAtt = s.params.maxAttempts
  sent_att : s.resStatus = .sent → s.resAtt = 1
  chan_att : s.resStatus = .chanErr → 1 ≤ s.resAtt
  illegal_att : s.resStatus = .illegalOp → s.resAtt = 0
  none_att : s.resStatus = .none → s.resAtt = 0

/-- The states of one operation, from the edge that accepts it in `s0` until its completion, with no reset (R217). -/
inductive InOperation (s0 : State) : State → Prop where
  | accepted (s : State) : s0.st = .idle → s0.inputs.rst = false → s0.inputs.cmdValid = true →
      step s0 = .next s → InOperation s0 s
  | cycle (s t : State) : InOperation s0 s → s.st.busy = true → s.inputs.rst = false →
      step s = .next t → InOperation s0 t

/-- `n` whole command frames, one after another, as they travel (R61). -/
def framesOf (f : Frame) : Nat → List Byte
  | 0 => []
  | n + 1 => f.toList ++ framesOf f n

/-- The frame of the operation an IDLE state is about to accept (R120, R204). -/
def offeredFrame (s : State) : Frame := cmdFrame s.inputs.cmdOp s.inputs.cmdSpan

/-- All registers of R30 as before: what a wait `s' = s` keeps (R13). -/
abbrev sameRegisters (s t : State) : Prop :=
  t.st = s.st ∧ t.opR = s.opR ∧ t.spanR = s.spanR ∧ t.txIdx = s.txIdx ∧ t.rxCnt = s.rxCnt ∧ t.rxbuf = s.rxbuf ∧
  t.att = s.att ∧ t.boCnt = s.boCnt ∧ t.resStatus = s.resStatus ∧ t.fields = s.fields ∧ t.resAtt = s.resAtt

/-- The result registers are as before (R39). -/
abbrev sameResult (s t : State) : Prop :=
  t.resStatus = s.resStatus ∧ t.fields = s.fields ∧ t.resAtt = s.resAtt

/-- Two input vectors agree on what a state reads (R216). -/
def agreeOnRead (st : Fsm) (a b : Inputs) : Prop :=
  a.rst = b.rst ∧
  match st with
  | .idle => a.cmdValid = b.cmdValid ∧ a.cmdOp = b.cmdOp ∧ a.cmdSpan = b.cmdSpan
  | .tx => a.chErr = b.chErr ∧ a.txReady = b.txReady
  | .rx => a.chErr = b.chErr ∧ a.rxValid = b.rxValid ∧ a.rxData = b.rxData ∧ a.rxTimeout = b.rxTimeout
  | .chk => a.chErr = b.chErr
  | .backoff => a.chErr = b.chErr
  | .done => a.rspReady = b.rspReady
  | .code6 => True
  | .code7 => True

/-- The arm of R200 for the inputs sampled, before the edge is counted: `rst` first, then a channel error of a busy
state, then the state's own arm over the latched operation (R120, R207, R210); R222 for the codes no run reaches. -/
def specArm (s : State) : State :=
  if s.inputs.rst then resetRegisters s
  else if s.st.busy ∧ s.inputs.chErr then chanErr s
  else match s.st with
    | .idle =>
      if s.inputs.cmdValid then
        if isReserved s.inputs.cmdOp then illegalOp s else accept s.inputs.cmdOp s.inputs.cmdSpan s
      else s
    | .tx => txArm (isRead s.opR) (cmdFrame s.opR s.spanR) s
    | .rx => rxArm s
    | .chk => chkArm (decodeFields s.opR) s
    | .backoff => backoffArm s
    | .done => doneArm s
    | .code6 => recover s
    | .code7 => recover s

/-- No reset and no channel error in this cycle. -/
abbrev calm (inp : Inputs) : Prop := inp.rst = false ∧ inp.chErr = false

/-- The host presents operation `i` in this cycle, with no reset (R21). -/
abbrev presents (i : Instr) (inp : Inputs) : Prop :=
  inp.rst = false ∧ inp.cmdValid = true ∧ inp.cmdOp = i.opcode ∧ inp.cmdSpan = i.span

/-- The cycles of one attempt in TX: any stalls, nine transfers, the ninth in the last cycle (R206, R279's T_j). -/
def transfersFrame (txs : List Inputs) : Prop :=
  (∀ inp ∈ txs, calm inp) ∧
  ∃ stalls last, txs = stalls ++ [last] ∧ stalls.countP (·.txReady) = 8 ∧ last.txReady = true

/-- The bytes delivered in these cycles, in order (R208). -/
def delivered (rxs : List Inputs) : List Byte := (rxs.filter (·.rxValid)).map (·.rxData)

/-- The cycles of one read window that captures `bytes`: it closes in the last cycle, by the ninth byte or by the
channel's timeout, and not before (R209, R279's W_j). -/
def closesWindow (rxs : List Inputs) (bytes : List Byte) : Prop :=
  (∀ inp ∈ rxs, calm inp) ∧ delivered rxs = bytes ∧
  ∃ waits last, rxs = waits ++ [last] ∧ (∀ inp ∈ waits, inp.rxTimeout = false) ∧
    (delivered waits).length ≤ 8 ∧ (bytes.length = 9 ∨ last.rxTimeout = true)

/-- `RespValid` of a window that captured these bytes (R141, R145). -/
def windowValid : List Byte → Bool
  | [b0, b1, b2, b3, b4, b5, b6, b7, b8] => respValid 9 #v[b0, b1, b2, b3, b4, b5, b6, b7, b8]
  | _ => false

/-- The cycles of one failed attempt: the frame, a window that is not valid, the check, the backoff (R211, R212). -/
def failedAttempt (backoffCycles : Nat) (inps : List Inputs) : Prop :=
  ∃ txs rxs bytes chk waits, inps = txs ++ rxs ++ [chk] ++ waits ∧ transfersFrame txs ∧ closesWindow rxs bytes ∧
    windowValid bytes = false ∧ calm chk ∧ waits.length = backoffCycles ∧ ∀ inp ∈ waits, calm inp

/-- `rsp_valid` first rises after `n` edges, in state `t` (R279). -/
def firstDone (n : Nat) (s t : State) : Prop :=
  core.run n s = .next t ∧ t.st = .done ∧ ∀ k < n, ∃ u, core.run k s = .next u ∧ u.st ≠ .done

end Sys2Proof.Machine
end

