-- ==== Sys2Proof/Certificates/Slice0/Obligations.lean ====
section
/-! DEFINITION. The statements for the provers, from the numbered rules of spec/. -/

open Sys2Proof Sys2Proof.Machine

-- Pure functions: checksum, command encoder, validator, decoder.

/-- R112 (laws 1 to 3, and its consequence for a frame). -/
def Obligations.ChecksumLaws : Prop :=
  (∀ a : List Byte, checksum a = 0 ↔ byteSum a % 256 = 0) ∧
  (∀ a : List Byte, byteSum a % 256 ≠ 0 → (checksum a).toNat = 256 - byteSum a % 256) ∧
  (∀ a : List Byte, (byteSum a + (checksum a).toNat) % 256 = 0) ∧
  (∀ f : Frame, byteSum [f[1], f[2], f[3], f[4], f[5], f[6], f[7], f[8]] % 256 = 0 ↔
    f[8] = checksum [f[1], f[2], f[3], f[4], f[5], f[6], f[7]])

/-- R111, R113: the generator is an 8-bit wrap-around adder and a two's complement negation. -/
def Obligations.ChecksumIsNegatedByteAdder : Prop :=
  (∀ a : List Byte, checksum a = -(a.foldl (· + ·) 0)) ∧
  (∀ a : List Byte, checksum a = ~~~(BitVec.ofNat 8 (byteSum a % 256)) + 1) ∧
  (∀ a : List Byte, (checksum a).toNat = (256 - byteSum a % 256) % 256) ∧
  (∀ span : Half, ck4 span = -(0x89 + hiByte span + loByte span))

/-- R114 (order) and R115 (zero padding). -/
def Obligations.ChecksumIgnoresOrderAndZeroPadding : Prop :=
  (∀ a b : List Byte, a.Perm b → checksum a = checksum b) ∧
  (∀ (a : List Byte) (k : Nat), checksum (a ++ List.replicate k 0x00) = checksum a)

/-- R122: every row of the table of command frames. -/
def Obligations.CommandFrameTable : Prop :=
  ∀ span : Half,
    cmdFrame 0b000 span = #v[0xFF, 0x01, 0x86, 0x00, 0x00, 0x00, 0x00, 0x00, 0x79] ∧
    cmdFrame 0b001 span = #v[0xFF, 0x01, 0x86, 0x00, 0x00, 0x00, 0x00, 0x00, 0x79] ∧
    cmdFrame 0b010 span = #v[0xFF, 0x01, 0x87, 0x00, 0x00, 0x00, 0x00, 0x00, 0x78] ∧
    cmdFrame 0b011 span = #v[0xFF, 0x01, 0x88, span.extractLsb' 8 8, span.extractLsb' 0 8, 0x00, 0x00, 0x00,
      checksum [0x01, 0x88, span.extractLsb' 8 8, span.extractLsb' 0 8]] ∧
    cmdFrame 0b100 span = #v[0xFF, 0x01, 0x79, 0xA0, 0x00, 0x00, 0x00, 0x00, 0xE6] ∧
    cmdFrame 0b101 span = #v[0xFF, 0x01, 0x79, 0x00, 0x00, 0x00, 0x00, 0x00, 0x86] ∧
    cmdFrame 0b110 span = Vector.replicate 9 0x00 ∧
    cmdFrame 0b111 span = Vector.replicate 9 0x00

/-- R115, R125, R128: every command frame that is sent starts FF 01, carries its command code, and ends with the
checksum of its bytes 1..7, CAL_SPAN's for every span. -/
def Obligations.SentFramesCarryCodeAndChecksum : Prop :=
  ∀ (op : BitVec 3) (span : Half), op < 6 →
    (cmdFrame op span)[0] = 0xFF ∧ (cmdFrame op span)[1] = 0x01 ∧ (cmdFrame op span)[2] = cmdCode op ∧
    (cmdFrame op span)[8] = ck7 (cmdFrame op span)

/-- R62: 16-bit fields are big-endian, in commands and in responses. -/
def Obligations.SixteenBitFieldsAreBigEndian : Prop :=
  (∀ hi lo : Byte, (join16 hi lo).toNat = hi.toNat * 256 + lo.toNat) ∧
  (∀ buf : Frame, (decodeFields 0b001 buf).co2 = join16 buf[2] buf[3] ∧
    (decodeFields 0b000 buf).co2 = join16 buf[2] buf[3] ∧ (decodeFields 0b001 buf).uhul = join16 buf[6] buf[7]) ∧
  (∀ span : Half, (cmdFrame 0b011 span)[3].toNat = span.toNat / 256 ∧
    (cmdFrame 0b011 span)[4].toNat = span.toNat % 256)

/-- R145: the validator's predicate; R112's consequence gives the last line. -/
def Obligations.ResponseValidExactlyOnFourConditions : Prop :=
  ∀ (cnt : BitVec 4) (buf : Frame),
    (respValid cnt buf = true ↔
      cnt = 9 ∧ buf[0] = 0xFF ∧ buf[1] = 0x86 ∧
      checksum [buf[1], buf[2], buf[3], buf[4], buf[5], buf[6], buf[7]] = buf[8]) ∧
    (respValid cnt buf = true →
      byteSum [buf[1], buf[2], buf[3], buf[4], buf[5], buf[6], buf[7], buf[8]] % 256 = 0)

/-- R162: the temperature is exact in 9 bits. -/
def Obligations.TemperatureIsByteFourMinusForty : Prop :=
  ∀ buf : Frame,
    (decodeFields 0b001 buf).temp.toInt = (buf[4].toNat : Int) - 40 ∧
    ((decodeFields 0b001 buf).temp.toNat : Int) = ((buf[4].toNat : Int) - 40) % 512 ∧
    ((decodeFields 0b001 buf).temp.signExtend 16).toInt = (buf[4].toNat : Int) - 40 ∧
    -40 ≤ (decodeFields 0b001 buf).temp.toInt ∧ (decodeFields 0b001 buf).temp.toInt ≤ 215

/-- R166: the field values of both read operations. -/
def Obligations.DecodedFieldsOfBothReads : Prop :=
  ∀ buf : Frame,
    decodeFields 0b001 buf =
      { co2 := join16 buf[2] buf[3], temp := BitVec.ofInt 9 (((buf[4].toNat : Int) - 40) % 512), tt := buf[4]
        ss := buf[5], uhul := join16 buf[6] buf[7] } ∧
    decodeFields 0b000 buf = { co2 := join16 buf[2] buf[3], temp := 0, tt := 0, ss := 0, uhul := 0 }

/-- R168: a response built from field values is valid and decodes back to them. -/
def Obligations.BuiltResponseRoundTrips : Prop :=
  ∀ (co2 uhul : Half) (t ss : Byte) (f : Frame),
    f = #v[0xFF, 0x86, hiByte co2, loByte co2, t, ss, hiByte uhul, loByte uhul,
      checksum [0x86, hiByte co2, loByte co2, t, ss, hiByte uhul, loByte uhul]] →
    respValid 9 f = true ∧ (decodeFields 0b001 f).co2 = co2 ∧ (decodeFields 0b001 f).tt = t ∧
    (decodeFields 0b001 f).ss = ss ∧ (decodeFields 0b001 f).uhul = uhul ∧
    (decodeFields 0b001 f).temp.toInt = (t.toNat : Int) - 40

-- Encoding.

/-- R93, with R82's codes: `cmd_op` alone selects the operation. -/
def Obligations.CommandOpSelectsOperation : Prop :=
  ∀ span : Half,
    decodeCw 0b000 span = .readCo2 span ∧ decodeCw 0b001 span = .readAll span ∧
    decodeCw 0b010 span = .calZero span ∧ decodeCw 0b011 span = .calSpan span ∧
    decodeCw 0b100 span = .autocalOn span ∧ decodeCw 0b101 span = .autocalOff span ∧
    decodeCw 0b110 span = .op6 span ∧ decodeCw 0b111 span = .op7 span

/-- Words written out bit by bit from R81 and R82 (span in bits 18:3, log 5) decode to their operations. -/
def Obligations.WrittenWordsDecode : Prop :=
  decodeWord 0b0000000000000000_000#19 = .readCo2 0 ∧
  decodeWord 0b0000000000000000_001#19 = .readAll 0 ∧
  decodeWord 0b0000000000000000_010#19 = .calZero 0 ∧
  decodeWord 0b0000011111010000_011#19 = .calSpan 2000 ∧
  decodeWord 0b0000000000000000_100#19 = .autocalOn 0 ∧
  decodeWord 0b1010101111001101_101#19 = .autocalOff 0xABCD ∧
  decodeWord 0b0000000000000000_110#19 = .op6 0 ∧
  decodeWord 0b1111111111111111_111#19 = .op7 0xFFFF

/-- Decode and encode agree on every operation with every span, and every byte string the decoder accepts is the
encoding of what it reads (the byte layout is log 5's). -/
def Obligations.DecodeEncodeAgree : Prop :=
  (∀ i : Instr, i.wellFormed = true → decodeBytes (encodeBytes i) = .ok i) ∧
  (∀ (bs : List Byte) (i : Instr), decodeBytes bs = .ok i → encodeBytes i = bs)

/-- R92: what the operation lines of the notation stand for, and which are none. -/
def Obligations.NotationStandsForOperations : Prop :=
  AsmOp.readCo2.assemble = some (.readCo2 0) ∧ AsmOp.readAll.assemble = some (.readAll 0) ∧
  AsmOp.calZero.assemble = some (.calZero 0) ∧
  AsmOp.autocalOn.assemble = some (.autocalOn 0) ∧ AsmOp.autocalOff.assemble = some (.autocalOff 0) ∧
  (AsmOp.setAutocal 1).assemble = some (.autocalOn 0) ∧ (AsmOp.setAutocal 0).assemble = some (.autocalOff 0) ∧
  (∀ b : Nat, 1 < b → (AsmOp.setAutocal b).assemble = none) ∧
  (∀ n : Nat, n ≤ 65535 → ∃ span : Half, span.toNat = n ∧ (AsmOp.calSpan n).assemble = some (.calSpan span)) ∧
  (∀ n : Nat, 65535 < n → (AsmOp.calSpan n).assemble = none) ∧
  (∀ k : Nat, k ≤ 7 → ∃ i : Instr, (AsmOp.op k).assemble = some i ∧ i.opcode.toNat = k ∧ i.span = 0) ∧
  (∀ k : Nat, 7 < k → (AsmOp.op k).assemble = none)

-- The step.

/-- A step runs the operation of the cycle: the one presented in IDLE, the latched one in a busy state; nothing
else but reset and the cycles between operations, and the edge is counted. -/
def Obligations.StepRunsCurrentOperation : Prop :=
  (∀ s : State, s.inputs.rst = false → s.st = .idle → s.inputs.cmdValid = true →
    step s = ticked (exec (decodeCw s.inputs.cmdOp s.inputs.cmdSpan) s)) ∧
  (∀ s : State, s.inputs.rst = false → s.st.busy = true → step s = ticked (exec (decodeCw s.opR s.spanR) s)) ∧
  (∀ s : State, s.inputs.rst = false → s.st = .idle → s.inputs.cmdValid = false → step s = .next s.tick) ∧
  (∀ s : State, s.inputs.rst = false → s.st = .done → step s = .next (doneArm s).tick) ∧
  (∀ s : State, s.inputs.rst = true → step s = .next (resetRegisters s).tick)

/-- An operation presented as a table word is the one the next step runs (log 10). -/
def Obligations.PlacedWordIsRunNext : Prop :=
  ∀ (s : State) (nbits w : Nat) (i : Instr), decodeTableWord nbits w = some i →
    step (s.withFetchWord nbits w) = ticked (exec i (s.withFetchWord nbits w))

/-- R200: the order of the arms, and that Step is total; for the two codes no run reaches the arm is R222's (log 6). -/
def Obligations.StepFollowsArmOrder : Prop :=
  ∀ s : State, step s = .next (specArm s).tick

/-- R202, R46: a reset at any edge gives every register its reset value, whatever the other inputs. -/
def Obligations.ResetGivesEveryRegisterItsValue : Prop :=
  ∀ s : State, s.inputs.rst = true → ∃ t, step s = .next t ∧
    t.st = .idle ∧ t.opR = 0 ∧ t.spanR = 0x0000 ∧ t.txIdx = 0 ∧ t.rxCnt = 0 ∧ t.rxbuf = Vector.replicate 9 0x00 ∧
    t.att = 0 ∧ t.boCnt = 0 ∧ t.resStatus.code = 0 ∧ t.resCo2 = 0x0000 ∧ t.resTemp = 0x000 ∧ t.resTt = 0x00 ∧
    t.resSs = 0x00 ∧ t.resUhul = 0x0000 ∧ t.resAtt = 0 ∧
    t.outputs = { cmdReady := true, busy := false, txValid := false, txData := 0x00, rxOpen := false
                  rspValid := false, rspStatus := 0, rspCo2 := 0, rspTemp := 0, rspTt := 0, rspSs := 0
                  rspUhul := 0, rspAttempts := 0 }

/-- R46: the machine the host starts from is ResetState, with the default MAX_ATTEMPTS of R7. -/
def Obligations.ResetStateValues : Prop :=
  State.reset.st.code = 0b000 ∧ State.reset.opR = 0 ∧ State.reset.spanR = 0 ∧ State.reset.txIdx = 0 ∧
  State.reset.rxCnt = 0 ∧ (∀ (j : Nat) (h : j < 9), State.reset.rxbuf[j] = 0x00) ∧ State.reset.att = 0 ∧
  State.reset.boCnt = 0 ∧ State.reset.resStatus = .none ∧ State.reset.fields = zeroFields ∧
  State.reset.resAtt = 0 ∧ State.reset.params.maxAttempts = 5

/-- R203: a channel error ends a running operation with CHAN_ERR before the state's own arm, changing no other
register and counting no byte; in IDLE and DONE it is ignored. -/
def Obligations.ChannelErrorEndsRunningOperation : Prop :=
  (∀ s : State, s.inputs.rst = false → s.st.busy = true → s.inputs.chErr = true →
    step s = .next (State.tick { s with
      resStatus := .chanErr, resCo2 := 0, resTemp := 0, resTt := 0, resSs := 0, resUhul := 0, resAtt := s.att
      st := .done })) ∧
  (∀ (s : State) (inp : Inputs) (rest : List Inputs) (e : Bool), s.st = .idle ∨ s.st = .done →
    step { s with script := { inp with chErr := e } :: rest } = step { s with script := inp :: rest })

/-- R203 for each operation: in every busy state the error is the operation's outcome (44_operations.md). No run
reaches OP 6 or OP 7 in a busy state, or a write-only operation in RX, CHK or BACKOFF: there it is the model's choice
(log 11). -/
def Obligations.EveryOperationReportsChannelError : Prop :=
  ∀ (i : Instr) (s : State), s.st.busy = true → s.inputs.chErr = true →
    exec i s = .next { s with
      resStatus := .chanErr, resCo2 := 0, resTemp := 0, resTt := 0, resSs := 0, resUhul := 0, resAtt := s.att
      st := .done }

/-- R204: an accepted operation is latched, every other register kept, and its first byte is offered in the next
cycle; without a command nothing changes. -/
def Obligations.AcceptanceLatchesOperation : Prop :=
  (∀ (i : Instr) (s : State), i.opcode < 6 → s.st = .idle →
    exec i s = .next { s with opR := i.opcode, spanR := i.span, txIdx := 0, att := 1, st := .tx }) ∧
  (∀ (i : Instr) (s : State), i.opcode < 6 → s.st = .idle → ∃ t, exec i s = .next t ∧ t.outputs.txValid = true ∧
    t.outputs.txData = (cmdFrame i.opcode i.span)[0]) ∧
  (∀ s : State, s.inputs.rst = false → s.st = .idle → s.inputs.cmdValid = true → s.inputs.cmdOp < 6 →
    step s = .next (State.tick { s with
      opR := s.inputs.cmdOp, spanR := s.inputs.cmdSpan, txIdx := 0, att := 1, st := .tx })) ∧
  (∀ s : State, s.inputs.rst = false → s.st = .idle → s.inputs.cmdValid = false → step s = .next s.tick)

/-- R205: a reserved code completes in its acceptance cycle; only the result registers and `st` change, no byte is
offered and no window opens. -/
def Obligations.ReservedCodeCompletesIllegal : Prop :=
  (∀ (span : Half) (i : Instr) (s : State), i = .op6 span ∨ i = .op7 span → s.st = .idle →
    exec i s = .next { s with
      resStatus := .illegalOp, resCo2 := 0, resTemp := 0, resTt := 0, resSs := 0, resUhul := 0, resAtt := 0
      st := .done }) ∧
  (∀ s : State, s.inputs.rst = false → s.st = .idle → s.inputs.cmdValid = true →
    s.inputs.cmdOp = 6 ∨ s.inputs.cmdOp = 7 →
    ∃ t, step s = .next t ∧ t.resStatus = .illegalOp ∧ t.fields = zeroFields ∧ t.resAtt = 0 ∧ t.st = .done ∧
      t.opR = s.opR ∧ t.spanR = s.spanR ∧ t.txIdx = s.txIdx ∧ t.att = s.att ∧ t.rxCnt = s.rxCnt ∧
      t.rxbuf = s.rxbuf ∧ t.boCnt = s.boCnt ∧ t.sent = s.sent ∧
      t.outputs.txValid = false ∧ t.outputs.rxOpen = false ∧ t.outputs.rspValid = true)

/-- R206: TX waits for the transmitter with the same byte on offer, and a transfer below index 8 offers the next; the
model's record `sent` (log 4) gets the byte. -/
def Obligations.TxOffersEachByteUntilTaken : Prop :=
  ∀ s : State, s.inputs.rst = false → s.inputs.chErr = false → s.st = .tx →
    (s.inputs.txReady = false → step s = .next s.tick ∧ s.tick.outputs.txData = s.outputs.txData) ∧
    (s.inputs.txReady = true → s.txIdx < 8 →
      ∃ h : s.txIdx.toNat < 9,
        step s = .next (State.tick { s with
          txIdx := s.txIdx + 1, sent := s.sent ++ [(cmdFrame s.opR s.spanR)[s.txIdx.toNat]] }))

/-- R206 for each operation: the byte handed over is that of the operation's own frame, and the model's record `sent`
(log 4) gets it. For OP 6 and OP 7, which are never sent (R83, R129), it is the model's choice (log 11). -/
def Obligations.EveryOperationSendsItsFrameByte : Prop :=
  ∀ (i : Instr) (s : State) (k : Nat) (h : k < 8), s.st = .tx → s.inputs.chErr = false → s.inputs.txReady = true →
    s.txIdx = BitVec.ofNat 4 k →
    exec i s = .next { s with
      txIdx := BitVec.ofNat 4 (k + 1), sent := s.sent ++ [(cmdFrame i.opcode i.span)[k]'(by omega)] }

/-- R207: the ninth transfer opens the window of a read operation and completes a write-only one; `tx_idx` stays 8. The
model's record `sent` (log 4) gets the byte. -/
def Obligations.NinthTransferEndsFrame : Prop :=
  ∀ s : State, s.inputs.rst = false → s.inputs.chErr = false → s.st = .tx → s.inputs.txReady = true → s.txIdx = 8 →
    (isRead s.opR = true →
      step s = .next (State.tick { s with
        rxCnt := 0, st := .rx, sent := s.sent ++ [(cmdFrame s.opR s.spanR)[8]] })) ∧
    (isRead s.opR = false →
      step s = .next (State.tick { s with
        resStatus := .sent, resCo2 := 0, resTemp := 0, resTt := 0, resSs := 0, resUhul := 0, resAtt := s.att
        st := .done, sent := s.sent ++ [(cmdFrame s.opR s.spanR)[8]] }))

/-- R182 to R185 with R207: each write-only operation completes with SENT when its checksum byte is taken, which the
model's record `sent` gets (log 4). -/
def Obligations.WriteOnlyOperationsCompleteSent : Prop :=
  ∀ (span : Half) (i : Instr) (s : State),
    i = .calZero span ∨ i = .calSpan span ∨ i = .autocalOn span ∨ i = .autocalOff span →
    s.st = .tx → s.inputs.chErr = false → s.inputs.txReady = true → s.txIdx = 8 →
    exec i s = .next { s with
      resStatus := .sent, resCo2 := 0, resTemp := 0, resTt := 0, resSs := 0, resUhul := 0, resAtt := s.att
      st := .done, sent := s.sent ++ [(cmdFrame i.opcode span)[8]] }

/-- R180, R181 with R207: each read operation opens its window when its checksum byte is taken, which the model's
record `sent` gets (log 4). -/
def Obligations.ReadOperationsOpenWindow : Prop :=
  ∀ (span : Half) (i : Instr) (s : State), i = .readCo2 span ∨ i = .readAll span →
    s.st = .tx → s.inputs.chErr = false → s.inputs.txReady = true → s.txIdx = 8 →
    exec i s = .next { s with rxCnt := 0, st := .rx, sent := s.sent ++ [0x79] }

/-- R208, R209: in RX a delivered byte is stored at index `rx_cnt`, and the ninth byte or the timeout closes the
window, the byte of that cycle being kept. -/
def Obligations.RxCapturesThenCloses : Prop :=
  ∀ s : State, s.inputs.rst = false → s.inputs.chErr = false → s.st = .rx → s.rxCnt ≤ 8 →
    ∃ t, step s = .next t ∧
      (s.inputs.rxValid = true → t.rxCnt.toNat = s.rxCnt.toNat + 1 ∧
        ∀ (j : Nat) (h : j < 9), t.rxbuf[j] = if j = s.rxCnt.toNat then s.inputs.rxData else s.rxbuf[j]) ∧
      (s.inputs.rxValid = false → t.rxCnt = s.rxCnt ∧ t.rxbuf = s.rxbuf) ∧
      (t.rxCnt = 9 ∨ s.inputs.rxTimeout = true → t.st = .chk) ∧
      (t.rxCnt ≠ 9 → s.inputs.rxTimeout = false → t.st = .rx) ∧
      t.opR = s.opR ∧ t.spanR = s.spanR ∧ t.txIdx = s.txIdx ∧ t.att = s.att ∧ t.boCnt = s.boCnt ∧
      sameResult s t ∧ t.sent = s.sent

/-- R180 with R210, R166: READ_CO2 completes with the CO2 value alone. -/
def Obligations.ReadCo2CompletesWithCo2Alone : Prop :=
  ∀ (span : Half) (s : State), s.st = .chk → s.inputs.chErr = false → respValid s.rxCnt s.rxbuf = true →
    exec (.readCo2 span) s = .next { s with
      resStatus := .ok, resCo2 := join16 s.rxbuf[2] s.rxbuf[3], resTemp := 0, resTt := 0, resSs := 0, resUhul := 0
      resAtt := s.att, st := .done }

/-- R181 with R210, R166: READ_ALL completes with every field. -/
def Obligations.ReadAllCompletesWithEveryField : Prop :=
  ∀ (span : Half) (s : State), s.st = .chk → s.inputs.chErr = false → respValid s.rxCnt s.rxbuf = true →
    exec (.readAll span) s = .next { s with
      resStatus := .ok, resCo2 := join16 s.rxbuf[2] s.rxbuf[3]
      resTemp := BitVec.ofInt 9 ((s.rxbuf[4].toNat : Int) - 40), resTt := s.rxbuf[4], resSs := s.rxbuf[5]
      resUhul := join16 s.rxbuf[6] s.rxbuf[7], resAtt := s.att, st := .done }

/-- R210: a valid response completes the operation with `Decode` of the latched operation. -/
def Obligations.ValidResponseFinishesOk : Prop :=
  ∀ s : State, s.inputs.rst = false → s.inputs.chErr = false → s.st = .chk → respValid s.rxCnt s.rxbuf = true →
    ∃ t, step s = .next t ∧ t.st = .done ∧ t.resStatus = .ok ∧ t.fields = decodeFields s.opR s.rxbuf ∧
      t.resAtt = s.att ∧ t.opR = s.opR ∧ t.spanR = s.spanR ∧ t.txIdx = s.txIdx ∧ t.rxCnt = s.rxCnt ∧
      t.rxbuf = s.rxbuf ∧ t.att = s.att ∧ t.boCnt = s.boCnt ∧ t.sent = s.sent

/-- R211: without a valid response the attempt fails: a backoff begins, or with BACKOFF_CYCLES = 0 what follows it
happens at once. -/
def Obligations.InvalidResponseFailsAttempt : Prop :=
  ∀ s : State, s.inputs.rst = false → s.inputs.chErr = false → s.st = .chk → respValid s.rxCnt s.rxbuf = false →
    (s.params.backoffCycles ≠ 0 →
      step s = .next (State.tick { s with boCnt := s.params.backoffCycles - 1, st := .backoff })) ∧
    (s.params.backoffCycles = 0 → step s = .next (afterBackoff s).tick)

/-- R212's step: count down, then what follows a backoff. -/
def Obligations.BackoffCountsDown : Prop :=
  ∀ s : State, s.inputs.rst = false → s.inputs.chErr = false → s.st = .backoff →
    (s.boCnt ≠ 0 → ∃ t, step s = .next t ∧ t.st = .backoff ∧ t.boCnt.toNat + 1 = s.boCnt.toNat ∧
      t = State.tick { s with boCnt := t.boCnt }) ∧
    (s.boCnt = 0 → step s = .next (afterBackoff s).tick)

/-- R213: another attempt sends the whole frame again, or the last attempt's failure gives ABSENT. -/
def Obligations.RetryOrAbsentAfterBackoff : Prop :=
  ∀ s : State,
    (s.params.maxAttempts ≤ s.att → afterBackoff s = { s with
      resStatus := .absent, resCo2 := 0, resTemp := 0, resTt := 0, resSs := 0, resUhul := 0, resAtt := s.att
      st := .done }) ∧
    (s.att < s.params.maxAttempts → ∃ a : BitVec 3, a.toNat = s.att.toNat + 1 ∧
      afterBackoff s = { s with att := a, txIdx := 0, st := .tx } ∧
      (afterBackoff s).outputs.txData = (cmdFrame s.opR s.spanR)[0])

/-- R212: a failed attempt is followed by exactly BACKOFF_CYCLES cycles in BACKOFF, unless cut short. -/
def Obligations.BackoffLastsExactlyBackoffCycles : Prop :=
  ∀ s : State, s.st = .chk → respValid s.rxCnt s.rxbuf = false →
    s.params.backoffCycles.toNat + 1 ≤ s.script.length →
    (∀ inp ∈ s.script.take (s.params.backoffCycles.toNat + 1), calm inp) →
    (∀ k, 1 ≤ k → k ≤ s.params.backoffCycles.toNat →
      ∃ t, core.run k s = .next t ∧ t.st = .backoff ∧ t.att = s.att ∧ t.sent = s.sent) ∧
    ∃ t, core.run (s.params.backoffCycles.toNat + 1) s = .next t ∧ (t.st = .tx ∨ t.st = .done)

/-- R215: DONE holds the result until it is taken; the result registers keep their values; no command is accepted. -/
def Obligations.ResultIsHeldUntilTaken : Prop :=
  ∀ s : State, s.inputs.rst = false → s.st = .done →
    (s.inputs.rspReady = false → step s = .next s.tick) ∧
    (s.inputs.rspReady = true → step s = .next (State.tick { s with st := .idle })) ∧
    ∃ t, step s = .next t ∧ sameResult s t

/-- R222: an unreachable code in `st` goes to IDLE and changes no other register. -/
def Obligations.UnreachableCodeGoesToIdle : Prop :=
  ∀ s : State, s.inputs.rst = false → s.st.code = 0b110 ∨ s.st.code = 0b111 →
    step s = .next (State.tick { s with st := .idle })

/-- The frame of every operation: which registers one cycle of it can write, by the position it is at, and what it
leaves unchanged. -/
def Obligations.OperationCycleFrame : Prop :=
  ∀ (i : Instr) (s : State), ∃ t, exec i s = .next t ∧
    t.params = s.params ∧ t.script = s.script ∧ t.cycle = s.cycle ∧
    (s.st ≠ .idle → t.opR = s.opR ∧ t.spanR = s.spanR) ∧
    (s.st ≠ .tx → t.sent = s.sent) ∧
    (s.st ≠ .rx → t.rxbuf = s.rxbuf) ∧
    (s.st ≠ .tx → s.st ≠ .rx → t.rxCnt = s.rxCnt) ∧
    (s.st ≠ .chk → s.st ≠ .backoff → t.boCnt = s.boCnt) ∧
    (s.st = .rx ∨ s.st = .done → t.txIdx = s.txIdx) ∧
    (s.st = .tx ∨ s.st = .rx ∨ s.st = .done → t.att = s.att) ∧
    (t.st ≠ .done ∨ s.st = .done → sameResult s t) ∧
    (i.opcode = 6 ∨ i.opcode = 7 → s.st = .idle → t.opR = s.opR ∧ t.spanR = s.spanR ∧ t.txIdx = s.txIdx ∧
      t.att = s.att)

/-- R22: a step records exactly the byte on offer when, and only when, it is transferred. That a byte offered in a
cycle with a channel error (R203) or a reset is not recorded is log 4's reading. The parameters never change and each
edge uses up one cycle's inputs (logs 2 and 3). -/
def Obligations.TransfersAreTheOfferedBytes : Prop :=
  ∀ s : State, ∃ t, step s = .next t ∧ t.params = s.params ∧ t.script = s.script.tail ∧ t.cycle = s.cycle + 1 ∧
    t.sent = if s.outputs.txValid = true ∧ s.inputs.txReady = true ∧ calm s.inputs
      then s.sent ++ [s.outputs.txData] else s.sent

/-- R201: the output equations. -/
def Obligations.OutputEquations : Prop :=
  ∀ s : State,
    (s.outputs.cmdReady = true ↔ s.st = .idle) ∧
    (s.outputs.busy = true ↔ s.st = .tx ∨ s.st = .rx ∨ s.st = .chk ∨ s.st = .backoff) ∧
    (s.outputs.txValid = true ↔ s.st = .tx) ∧
    (∀ (k : Nat) (h : k < 9), s.st = .tx → s.txIdx = BitVec.ofNat 4 k →
      s.outputs.txData = (cmdFrame s.opR s.spanR)[k]) ∧
    (s.st ≠ .tx → s.outputs.txData = 0x00) ∧
    (s.outputs.rxOpen = true ↔ s.st = .rx) ∧ (s.outputs.rspValid = true ↔ s.st = .done) ∧
    s.outputs.rspStatus = s.resStatus.code ∧ s.outputs.rspCo2 = s.resCo2 ∧ s.outputs.rspTemp = s.resTemp ∧
    s.outputs.rspTt = s.resTt ∧ s.outputs.rspSs = s.resSs ∧ s.outputs.rspUhul = s.resUhul ∧
    s.outputs.rspAttempts = s.resAtt

/-- R31, R89: the codes of `st` and of the status. -/
def Obligations.StateAndStatusCodes : Prop :=
  Fsm.idle.code = 0b000 ∧ Fsm.tx.code = 0b001 ∧ Fsm.rx.code = 0b010 ∧ Fsm.chk.code = 0b011 ∧
  Fsm.backoff.code = 0b100 ∧ Fsm.done.code = 0b101 ∧ (∀ a b : Fsm, a.code = b.code → a = b) ∧
  Status.none.code = 0 ∧ Status.ok.code = 1 ∧ Status.absent.code = 2 ∧ Status.sent.code = 3 ∧
  Status.chanErr.code = 4 ∧ Status.illegalOp.code = 5

/-- R39: the result registers change only at a completion (the edge that enters DONE) and at a reset. -/
def Obligations.ResultRegistersWrittenOnlyByFinish : Prop :=
  ∀ s t : State, step s = .next t → s.inputs.rst = false → ¬ (s.st ≠ .done ∧ t.st = .done) → sameResult s t

/-- R36, R60: an entry of the response buffer changes only by a reset or by the capture at its index in RX. -/
def Obligations.BufferWrittenOnlyByCapture : Prop :=
  ∀ (s t : State) (j : Nat) (h : j < 9), step s = .next t → s.inputs.rst = false → t.rxbuf[j] ≠ s.rxbuf[j] →
    s.st = .rx ∧ s.inputs.chErr = false ∧ s.inputs.rxValid = true ∧ s.rxCnt.toNat = j ∧ t.rxbuf[j] = s.inputs.rxData

/-- R147: an OK completion comes only from a valid response of a read window, decoded. -/
def Obligations.NoFalsePositiveDecode : Prop :=
  ∀ s t : State, step s = .next t → s.st ≠ .done → t.st = .done → t.resStatus = .ok →
    s.st = .chk ∧ s.inputs.rst = false ∧ s.inputs.chErr = false ∧ respValid s.rxCnt s.rxbuf = true ∧
    t.fields = decodeFields s.opR s.rxbuf ∧ t.resAtt = s.att

/-- R216: an input a state does not read has no effect in it. -/
def Obligations.UnreadInputsHaveNoEffect : Prop :=
  ∀ (s : State) (a b : Inputs) (rest : List Inputs), agreeOnRead s.st a b →
    step { s with script := a :: rest } = step { s with script := b :: rest }

/-- R11: without the retry FSM a failed read completes at once with ABSENT. -/
def Obligations.NoRetryConfigurationCompletesAtOnce : Prop :=
  ∀ s : State, s.params = noRetry → s.inputs.rst = false → s.inputs.chErr = false → s.st = .chk →
    1 ≤ s.att → respValid s.rxCnt s.rxbuf = false →
    ∃ t, step s = .next t ∧ t.st = .done ∧ t.resStatus = .absent ∧ t.fields = zeroFields ∧ t.resAtt = s.att

/-- R219: the waits have no bound inside the framer. -/
def Obligations.WaitsNeverEndByThemselves : Prop :=
  ∀ (n : Nat) (s : State), n ≤ s.script.length → (∀ inp ∈ s.script.take n, inp.rst = false) →
    (s.st = .idle → (∀ inp ∈ s.script.take n, inp.cmdValid = false) →
      ∃ t, core.run n s = .next t ∧ sameRegisters s t ∧ t.sent = s.sent) ∧
    (s.st = .done → (∀ inp ∈ s.script.take n, inp.rspReady = false) →
      ∃ t, core.run n s = .next t ∧ sameRegisters s t ∧ t.sent = s.sent) ∧
    (s.st = .tx → (∀ inp ∈ s.script.take n, inp.chErr = false ∧ inp.txReady = false) →
      ∃ t, core.run n s = .next t ∧ sameRegisters s t ∧ t.sent = s.sent) ∧
    (s.st = .rx → s.rxCnt.toNat + (s.script.take n).countP (·.rxValid) ≤ 8 →
      (∀ inp ∈ s.script.take n, inp.chErr = false ∧ inp.rxTimeout = false) →
      ∃ t, core.run n s = .next t ∧ t.st = .rx ∧
        t.rxCnt.toNat = s.rxCnt.toNat + (s.script.take n).countP (·.rxValid))

-- Invariants and whole operations.

/-- R47, items 1 to 6 and 8, and the ranges of R30: every step keeps them. -/
def Obligations.StepKeepsControlInvariant : Prop :=
  ∀ s t : State, ControlInv s → step s = .next t → ControlInv t

/-- R47.7, R89, R90: every step keeps what the result word may be. -/
def Obligations.StepKeepsResultInvariant : Prop :=
  ∀ s t : State, ControlInv s → ResultInv s → step s = .next t → ResultInv t

/-- Both invariants hold after reset. -/
def Obligations.ResetMeetsInvariants : Prop :=
  ControlInv State.reset ∧ ResultInv State.reset

/-- R48: what an operation sends and answers does not depend on the registers earlier operations left. What it sends is
read from the model's record `sent` (log 4). -/
def Obligations.OperationsAreIndependentOfThePast : Prop :=
  ∀ (n : Nat) (s1 s2 : State), s1.st = .idle → s2.st = .idle → s1.params = s2.params → s1.script = s2.script →
    s1.cycle = s2.cycle →
    ∃ t1 t2 w, core.run n s1 = .next t1 ∧ core.run n s2 = .next t2 ∧
      t1.sent = s1.sent ++ w ∧ t2.sent = s2.sent ++ w ∧
      t1.outputs.cmdReady = t2.outputs.cmdReady ∧ t1.outputs.busy = t2.outputs.busy ∧
      t1.outputs.txValid = t2.outputs.txValid ∧ t1.outputs.txData = t2.outputs.txData ∧
      t1.outputs.rxOpen = t2.outputs.rxOpen ∧ t1.outputs.rspValid = t2.outputs.rspValid ∧
      (t1.outputs.rspValid = true → t1.outputs = t2.outputs)

/-- R217: what each status says about the bytes sent, for every operation under every stimulus without a reset. The
bytes are those of the model's record `sent` (log 4). -/
def Obligations.AttemptAccounting : Prop :=
  ∀ s0 s : State, s0.params.legal = true → InOperation s0 s → s.st = .done →
    (s.resStatus = .ok → isRead s0.inputs.cmdOp = true ∧ 1 ≤ s.resAtt ∧ s.resAtt ≤ s0.params.maxAttempts ∧
      s.sent = s0.sent ++ framesOf (offeredFrame s0) s.resAtt.toNat) ∧
    (s.resStatus = .absent → isRead s0.inputs.cmdOp = true ∧ s.resAtt = s0.params.maxAttempts ∧
      s.sent = s0.sent ++ framesOf (offeredFrame s0) s.resAtt.toNat) ∧
    (s.resStatus = .sent → isRead s0.inputs.cmdOp = false ∧ s.resAtt = 1 ∧
      s.sent = s0.sent ++ framesOf (offeredFrame s0) 1) ∧
    (s.resStatus = .chanErr → 1 ≤ s.resAtt ∧ s.resAtt ≤ s0.params.maxAttempts ∧
      ∃ m ≤ 9, s.sent = s0.sent ++ framesOf (offeredFrame s0) (s.resAtt.toNat - 1) ++
        (offeredFrame s0).toList.take m) ∧
    (s.resStatus = .illegalOp → isReserved s0.inputs.cmdOp = true ∧ s.resAtt = 0 ∧ s.sent = s0.sent) ∧
    s.resStatus ≠ .none

/-- R182 to R185, R279: from IDLE, under any stalls of the transmitter, a write-only operation sends its frame once
and `rsp_valid` first rises in cycle 1 + T. What it sends is the model's record `sent` (log 4). -/
def Obligations.WriteOnlyOperationRuns : Prop :=
  ∀ (i : Instr) (s : State) (cmd : Inputs) (txs rest : List Inputs),
    2 ≤ i.opcode → i.opcode ≤ 5 → s.st = .idle → presents i cmd → transfersFrame txs →
    s.script = cmd :: txs ++ rest →
    ∃ t, firstDone (1 + txs.length) s t ∧ t.resStatus = .sent ∧ t.fields = zeroFields ∧ t.resAtt = 1 ∧
      t.sent = s.sent ++ (cmdFrame i.opcode i.span).toList

/-- R180, R181, R279: from IDLE, after fewer than MAX_ATTEMPTS failed attempts of any shape, a valid response gives
OK, with the number of the attempt and the decoded fields, in the cycle R279 gives. What it sends is the model's record
`sent` (log 4). -/
def Obligations.ReadOperationSucceedsAtAttempt : Prop :=
  ∀ (i : Instr) (s : State) (cmd chk : Inputs) (failures : List (List Inputs)) (txs rxs rest : List Inputs)
    (bytes : List Byte) (f : Frame),
    isRead i.opcode = true → s.params.legal = true → s.st = .idle → presents i cmd →
    failures.length < s.params.maxAttempts.toNat →
    (∀ a ∈ failures, failedAttempt s.params.backoffCycles.toNat a) →
    transfersFrame txs → closesWindow rxs bytes → bytes = f.toList → respValid 9 f = true → calm chk →
    s.script = cmd :: failures.flatten ++ txs ++ rxs ++ [chk] ++ rest →
    ∃ t, firstDone (1 + failures.flatten.length + txs.length + rxs.length + 1) s t ∧ t.resStatus = .ok ∧
      t.fields = decodeFields i.opcode f ∧ t.resAtt.toNat = failures.length + 1 ∧
      t.sent = s.sent ++ framesOf (cmdFrame i.opcode i.span) (failures.length + 1)

/-- R218, R279: from IDLE, a channel that never delivers a valid response gets exactly MAX_ATTEMPTS command frames
and the operation completes with ABSENT and all fields 0. What it sends is the model's record `sent` (log 4). -/
def Obligations.RetryBound : Prop :=
  ∀ (i : Instr) (s : State) (cmd : Inputs) (failures : List (List Inputs)) (rest : List Inputs),
    isRead i.opcode = true → s.params.legal = true → s.st = .idle → presents i cmd →
    failures.length = s.params.maxAttempts.toNat →
    (∀ a ∈ failures, failedAttempt s.params.backoffCycles.toNat a) →
    s.script = cmd :: failures.flatten ++ rest →
    ∃ t, firstDone (1 + failures.flatten.length) s t ∧ t.resStatus = .absent ∧ t.fields = zeroFields ∧
      t.resAtt = s.params.maxAttempts ∧
      t.sent = s.sent ++ framesOf (cmdFrame i.opcode i.span) s.params.maxAttempts.toNat
end

