-- ==== Sys2Proof/Laws/State.lean ====
section
/-! SUPPORT. What each register write does to each field of State, so that no later proof unfolds a record update. -/

namespace Sys2Proof.Machine

@[simp] theorem tick_st (s : State) : (s.tick).st = s.st := rfl
@[simp] theorem tick_opR (s : State) : (s.tick).opR = s.opR := rfl
@[simp] theorem tick_spanR (s : State) : (s.tick).spanR = s.spanR := rfl
@[simp] theorem tick_txIdx (s : State) : (s.tick).txIdx = s.txIdx := rfl
@[simp] theorem tick_rxCnt (s : State) : (s.tick).rxCnt = s.rxCnt := rfl
@[simp] theorem tick_rxbuf (s : State) : (s.tick).rxbuf = s.rxbuf := rfl
@[simp] theorem tick_att (s : State) : (s.tick).att = s.att := rfl
@[simp] theorem tick_boCnt (s : State) : (s.tick).boCnt = s.boCnt := rfl
@[simp] theorem tick_resStatus (s : State) : (s.tick).resStatus = s.resStatus := rfl
@[simp] theorem tick_resCo2 (s : State) : (s.tick).resCo2 = s.resCo2 := rfl
@[simp] theorem tick_resTemp (s : State) : (s.tick).resTemp = s.resTemp := rfl
@[simp] theorem tick_resTt (s : State) : (s.tick).resTt = s.resTt := rfl
@[simp] theorem tick_resSs (s : State) : (s.tick).resSs = s.resSs := rfl
@[simp] theorem tick_resUhul (s : State) : (s.tick).resUhul = s.resUhul := rfl
@[simp] theorem tick_resAtt (s : State) : (s.tick).resAtt = s.resAtt := rfl
@[simp] theorem tick_params (s : State) : (s.tick).params = s.params := rfl
@[simp] theorem tick_script (s : State) : (s.tick).script = s.script.tail := rfl
@[simp] theorem tick_cycle (s : State) : (s.tick).cycle = s.cycle + 1 := rfl
@[simp] theorem tick_sent (s : State) : (s.tick).sent = s.sent := rfl

@[simp] theorem finish_st (a : Status) (f : Fields) (n : BitVec 3) (s : State) : (finish a f n s).st = .done := rfl
@[simp] theorem finish_opR (a : Status) (f : Fields) (n : BitVec 3) (s : State) : (finish a f n s).opR = s.opR := rfl
@[simp] theorem finish_spanR (a : Status) (f : Fields) (n : BitVec 3) (s : State) : (finish a f n s).spanR = s.spanR := rfl
@[simp] theorem finish_txIdx (a : Status) (f : Fields) (n : BitVec 3) (s : State) : (finish a f n s).txIdx = s.txIdx := rfl
@[simp] theorem finish_rxCnt (a : Status) (f : Fields) (n : BitVec 3) (s : State) : (finish a f n s).rxCnt = s.rxCnt := rfl
@[simp] theorem finish_rxbuf (a : Status) (f : Fields) (n : BitVec 3) (s : State) : (finish a f n s).rxbuf = s.rxbuf := rfl
@[simp] theorem finish_att (a : Status) (f : Fields) (n : BitVec 3) (s : State) : (finish a f n s).att = s.att := rfl
@[simp] theorem finish_boCnt (a : Status) (f : Fields) (n : BitVec 3) (s : State) : (finish a f n s).boCnt = s.boCnt := rfl
@[simp] theorem finish_resStatus (a : Status) (f : Fields) (n : BitVec 3) (s : State) : (finish a f n s).resStatus = a := rfl
@[simp] theorem finish_resCo2 (a : Status) (f : Fields) (n : BitVec 3) (s : State) : (finish a f n s).resCo2 = f.co2 := rfl
@[simp] theorem finish_resTemp (a : Status) (f : Fields) (n : BitVec 3) (s : State) : (finish a f n s).resTemp = f.temp := rfl
@[simp] theorem finish_resTt (a : Status) (f : Fields) (n : BitVec 3) (s : State) : (finish a f n s).resTt = f.tt := rfl
@[simp] theorem finish_resSs (a : Status) (f : Fields) (n : BitVec 3) (s : State) : (finish a f n s).resSs = f.ss := rfl
@[simp] theorem finish_resUhul (a : Status) (f : Fields) (n : BitVec 3) (s : State) : (finish a f n s).resUhul = f.uhul := rfl
@[simp] theorem finish_resAtt (a : Status) (f : Fields) (n : BitVec 3) (s : State) : (finish a f n s).resAtt = n := rfl
@[simp] theorem finish_params (a : Status) (f : Fields) (n : BitVec 3) (s : State) : (finish a f n s).params = s.params := rfl
@[simp] theorem finish_script (a : Status) (f : Fields) (n : BitVec 3) (s : State) : (finish a f n s).script = s.script := rfl
@[simp] theorem finish_cycle (a : Status) (f : Fields) (n : BitVec 3) (s : State) : (finish a f n s).cycle = s.cycle := rfl
@[simp] theorem finish_sent (a : Status) (f : Fields) (n : BitVec 3) (s : State) : (finish a f n s).sent = s.sent := rfl
@[simp] theorem finish_inputs (a : Status) (f : Fields) (n : BitVec 3) (s : State) : (finish a f n s).inputs = s.inputs := rfl

@[simp] theorem takeResult_st (s : State) : (takeResult s).st = .idle := rfl
@[simp] theorem takeResult_opR (s : State) : (takeResult s).opR = s.opR := rfl
@[simp] theorem takeResult_spanR (s : State) : (takeResult s).spanR = s.spanR := rfl
@[simp] theorem takeResult_txIdx (s : State) : (takeResult s).txIdx = s.txIdx := rfl
@[simp] theorem takeResult_rxCnt (s : State) : (takeResult s).rxCnt = s.rxCnt := rfl
@[simp] theorem takeResult_rxbuf (s : State) : (takeResult s).rxbuf = s.rxbuf := rfl
@[simp] theorem takeResult_att (s : State) : (takeResult s).att = s.att := rfl
@[simp] theorem takeResult_boCnt (s : State) : (takeResult s).boCnt = s.boCnt := rfl
@[simp] theorem takeResult_resStatus (s : State) : (takeResult s).resStatus = s.resStatus := rfl
@[simp] theorem takeResult_resCo2 (s : State) : (takeResult s).resCo2 = s.resCo2 := rfl
@[simp] theorem takeResult_resTemp (s : State) : (takeResult s).resTemp = s.resTemp := rfl
@[simp] theorem takeResult_resTt (s : State) : (takeResult s).resTt = s.resTt := rfl
@[simp] theorem takeResult_resSs (s : State) : (takeResult s).resSs = s.resSs := rfl
@[simp] theorem takeResult_resUhul (s : State) : (takeResult s).resUhul = s.resUhul := rfl
@[simp] theorem takeResult_resAtt (s : State) : (takeResult s).resAtt = s.resAtt := rfl
@[simp] theorem takeResult_params (s : State) : (takeResult s).params = s.params := rfl
@[simp] theorem takeResult_script (s : State) : (takeResult s).script = s.script := rfl
@[simp] theorem takeResult_cycle (s : State) : (takeResult s).cycle = s.cycle := rfl
@[simp] theorem takeResult_sent (s : State) : (takeResult s).sent = s.sent := rfl
@[simp] theorem takeResult_inputs (s : State) : (takeResult s).inputs = s.inputs := rfl

@[simp] theorem resetRegisters_st (s : State) : (resetRegisters s).st = .idle := rfl
@[simp] theorem resetRegisters_opR (s : State) : (resetRegisters s).opR = 0 := rfl
@[simp] theorem resetRegisters_spanR (s : State) : (resetRegisters s).spanR = 0 := rfl
@[simp] theorem resetRegisters_txIdx (s : State) : (resetRegisters s).txIdx = 0 := rfl
@[simp] theorem resetRegisters_rxCnt (s : State) : (resetRegisters s).rxCnt = 0 := rfl
@[simp] theorem resetRegisters_rxbuf (s : State) : (resetRegisters s).rxbuf = Vector.replicate 9 0 := rfl
@[simp] theorem resetRegisters_att (s : State) : (resetRegisters s).att = 0 := rfl
@[simp] theorem resetRegisters_boCnt (s : State) : (resetRegisters s).boCnt = 0 := rfl
@[simp] theorem resetRegisters_resStatus (s : State) : (resetRegisters s).resStatus = .none := rfl
@[simp] theorem resetRegisters_resCo2 (s : State) : (resetRegisters s).resCo2 = 0 := rfl
@[simp] theorem resetRegisters_resTemp (s : State) : (resetRegisters s).resTemp = 0 := rfl
@[simp] theorem resetRegisters_resTt (s : State) : (resetRegisters s).resTt = 0 := rfl
@[simp] theorem resetRegisters_resSs (s : State) : (resetRegisters s).resSs = 0 := rfl
@[simp] theorem resetRegisters_resUhul (s : State) : (resetRegisters s).resUhul = 0 := rfl
@[simp] theorem resetRegisters_resAtt (s : State) : (resetRegisters s).resAtt = 0 := rfl
@[simp] theorem resetRegisters_params (s : State) : (resetRegisters s).params = s.params := rfl
@[simp] theorem resetRegisters_script (s : State) : (resetRegisters s).script = s.script := rfl
@[simp] theorem resetRegisters_cycle (s : State) : (resetRegisters s).cycle = s.cycle := rfl
@[simp] theorem resetRegisters_sent (s : State) : (resetRegisters s).sent = s.sent := rfl
@[simp] theorem resetRegisters_inputs (s : State) : (resetRegisters s).inputs = s.inputs := rfl

@[simp] theorem accept_st (op : BitVec 3) (span : Half) (s : State) : (accept op span s).st = .tx := rfl
@[simp] theorem accept_opR (op : BitVec 3) (span : Half) (s : State) : (accept op span s).opR = op := rfl
@[simp] theorem accept_spanR (op : BitVec 3) (span : Half) (s : State) : (accept op span s).spanR = span := rfl
@[simp] theorem accept_txIdx (op : BitVec 3) (span : Half) (s : State) : (accept op span s).txIdx = 0 := rfl
@[simp] theorem accept_rxCnt (op : BitVec 3) (span : Half) (s : State) : (accept op span s).rxCnt = s.rxCnt := rfl
@[simp] theorem accept_rxbuf (op : BitVec 3) (span : Half) (s : State) : (accept op span s).rxbuf = s.rxbuf := rfl
@[simp] theorem accept_att (op : BitVec 3) (span : Half) (s : State) : (accept op span s).att = 1 := rfl
@[simp] theorem accept_boCnt (op : BitVec 3) (span : Half) (s : State) : (accept op span s).boCnt = s.boCnt := rfl
@[simp] theorem accept_resStatus (op : BitVec 3) (span : Half) (s : State) : (accept op span s).resStatus = s.resStatus := rfl
@[simp] theorem accept_resCo2 (op : BitVec 3) (span : Half) (s : State) : (accept op span s).resCo2 = s.resCo2 := rfl
@[simp] theorem accept_resTemp (op : BitVec 3) (span : Half) (s : State) : (accept op span s).resTemp = s.resTemp := rfl
@[simp] theorem accept_resTt (op : BitVec 3) (span : Half) (s : State) : (accept op span s).resTt = s.resTt := rfl
@[simp] theorem accept_resSs (op : BitVec 3) (span : Half) (s : State) : (accept op span s).resSs = s.resSs := rfl
@[simp] theorem accept_resUhul (op : BitVec 3) (span : Half) (s : State) : (accept op span s).resUhul = s.resUhul := rfl
@[simp] theorem accept_resAtt (op : BitVec 3) (span : Half) (s : State) : (accept op span s).resAtt = s.resAtt := rfl
@[simp] theorem accept_params (op : BitVec 3) (span : Half) (s : State) : (accept op span s).params = s.params := rfl
@[simp] theorem accept_script (op : BitVec 3) (span : Half) (s : State) : (accept op span s).script = s.script := rfl
@[simp] theorem accept_cycle (op : BitVec 3) (span : Half) (s : State) : (accept op span s).cycle = s.cycle := rfl
@[simp] theorem accept_sent (op : BitVec 3) (span : Half) (s : State) : (accept op span s).sent = s.sent := rfl
@[simp] theorem accept_inputs (op : BitVec 3) (span : Half) (s : State) : (accept op span s).inputs = s.inputs := rfl

@[simp] theorem transfer_st (b : Byte) (s : State) : (transfer b s).st = s.st := rfl
@[simp] theorem transfer_opR (b : Byte) (s : State) : (transfer b s).opR = s.opR := rfl
@[simp] theorem transfer_spanR (b : Byte) (s : State) : (transfer b s).spanR = s.spanR := rfl
@[simp] theorem transfer_txIdx (b : Byte) (s : State) : (transfer b s).txIdx = s.txIdx := rfl
@[simp] theorem transfer_rxCnt (b : Byte) (s : State) : (transfer b s).rxCnt = s.rxCnt := rfl
@[simp] theorem transfer_rxbuf (b : Byte) (s : State) : (transfer b s).rxbuf = s.rxbuf := rfl
@[simp] theorem transfer_att (b : Byte) (s : State) : (transfer b s).att = s.att := rfl
@[simp] theorem transfer_boCnt (b : Byte) (s : State) : (transfer b s).boCnt = s.boCnt := rfl
@[simp] theorem transfer_resStatus (b : Byte) (s : State) : (transfer b s).resStatus = s.resStatus := rfl
@[simp] theorem transfer_resCo2 (b : Byte) (s : State) : (transfer b s).resCo2 = s.resCo2 := rfl
@[simp] theorem transfer_resTemp (b : Byte) (s : State) : (transfer b s).resTemp = s.resTemp := rfl
@[simp] theorem transfer_resTt (b : Byte) (s : State) : (transfer b s).resTt = s.resTt := rfl
@[simp] theorem transfer_resSs (b : Byte) (s : State) : (transfer b s).resSs = s.resSs := rfl
@[simp] theorem transfer_resUhul (b : Byte) (s : State) : (transfer b s).resUhul = s.resUhul := rfl
@[simp] theorem transfer_resAtt (b : Byte) (s : State) : (transfer b s).resAtt = s.resAtt := rfl
@[simp] theorem transfer_params (b : Byte) (s : State) : (transfer b s).params = s.params := rfl
@[simp] theorem transfer_script (b : Byte) (s : State) : (transfer b s).script = s.script := rfl
@[simp] theorem transfer_cycle (b : Byte) (s : State) : (transfer b s).cycle = s.cycle := rfl
@[simp] theorem transfer_sent (b : Byte) (s : State) : (transfer b s).sent = s.sent ++ [b] := rfl
@[simp] theorem transfer_inputs (b : Byte) (s : State) : (transfer b s).inputs = s.inputs := rfl

@[simp] theorem nextByte_st (s : State) : (nextByte s).st = s.st := rfl
@[simp] theorem nextByte_opR (s : State) : (nextByte s).opR = s.opR := rfl
@[simp] theorem nextByte_spanR (s : State) : (nextByte s).spanR = s.spanR := rfl
@[simp] theorem nextByte_txIdx (s : State) : (nextByte s).txIdx = s.txIdx + 1 := rfl
@[simp] theorem nextByte_rxCnt (s : State) : (nextByte s).rxCnt = s.rxCnt := rfl
@[simp] theorem nextByte_rxbuf (s : State) : (nextByte s).rxbuf = s.rxbuf := rfl
@[simp] theorem nextByte_att (s : State) : (nextByte s).att = s.att := rfl
@[simp] theorem nextByte_boCnt (s : State) : (nextByte s).boCnt = s.boCnt := rfl
@[simp] theorem nextByte_resStatus (s : State) : (nextByte s).resStatus = s.resStatus := rfl
@[simp] theorem nextByte_resCo2 (s : State) : (nextByte s).resCo2 = s.resCo2 := rfl
@[simp] theorem nextByte_resTemp (s : State) : (nextByte s).resTemp = s.resTemp := rfl
@[simp] theorem nextByte_resTt (s : State) : (nextByte s).resTt = s.resTt := rfl
@[simp] theorem nextByte_resSs (s : State) : (nextByte s).resSs = s.resSs := rfl
@[simp] theorem nextByte_resUhul (s : State) : (nextByte s).resUhul = s.resUhul := rfl
@[simp] theorem nextByte_resAtt (s : State) : (nextByte s).resAtt = s.resAtt := rfl
@[simp] theorem nextByte_params (s : State) : (nextByte s).params = s.params := rfl
@[simp] theorem nextByte_script (s : State) : (nextByte s).script = s.script := rfl
@[simp] theorem nextByte_cycle (s : State) : (nextByte s).cycle = s.cycle := rfl
@[simp] theorem nextByte_sent (s : State) : (nextByte s).sent = s.sent := rfl
@[simp] theorem nextByte_inputs (s : State) : (nextByte s).inputs = s.inputs := rfl

@[simp] theorem openWindow_st (s : State) : (openWindow s).st = .rx := rfl
@[simp] theorem openWindow_opR (s : State) : (openWindow s).opR = s.opR := rfl
@[simp] theorem openWindow_spanR (s : State) : (openWindow s).spanR = s.spanR := rfl
@[simp] theorem openWindow_txIdx (s : State) : (openWindow s).txIdx = s.txIdx := rfl
@[simp] theorem openWindow_rxCnt (s : State) : (openWindow s).rxCnt = 0 := rfl
@[simp] theorem openWindow_rxbuf (s : State) : (openWindow s).rxbuf = s.rxbuf := rfl
@[simp] theorem openWindow_att (s : State) : (openWindow s).att = s.att := rfl
@[simp] theorem openWindow_boCnt (s : State) : (openWindow s).boCnt = s.boCnt := rfl
@[simp] theorem openWindow_resStatus (s : State) : (openWindow s).resStatus = s.resStatus := rfl
@[simp] theorem openWindow_resCo2 (s : State) : (openWindow s).resCo2 = s.resCo2 := rfl
@[simp] theorem openWindow_resTemp (s : State) : (openWindow s).resTemp = s.resTemp := rfl
@[simp] theorem openWindow_resTt (s : State) : (openWindow s).resTt = s.resTt := rfl
@[simp] theorem openWindow_resSs (s : State) : (openWindow s).resSs = s.resSs := rfl
@[simp] theorem openWindow_resUhul (s : State) : (openWindow s).resUhul = s.resUhul := rfl
@[simp] theorem openWindow_resAtt (s : State) : (openWindow s).resAtt = s.resAtt := rfl
@[simp] theorem openWindow_params (s : State) : (openWindow s).params = s.params := rfl
@[simp] theorem openWindow_script (s : State) : (openWindow s).script = s.script := rfl
@[simp] theorem openWindow_cycle (s : State) : (openWindow s).cycle = s.cycle := rfl
@[simp] theorem openWindow_sent (s : State) : (openWindow s).sent = s.sent := rfl
@[simp] theorem openWindow_inputs (s : State) : (openWindow s).inputs = s.inputs := rfl

@[simp] theorem capture_st (b : Byte) (s : State) : (capture b s).st = s.st := rfl
@[simp] theorem capture_opR (b : Byte) (s : State) : (capture b s).opR = s.opR := rfl
@[simp] theorem capture_spanR (b : Byte) (s : State) : (capture b s).spanR = s.spanR := rfl
@[simp] theorem capture_txIdx (b : Byte) (s : State) : (capture b s).txIdx = s.txIdx := rfl
@[simp] theorem capture_rxCnt (b : Byte) (s : State) : (capture b s).rxCnt = s.rxCnt + 1 := rfl
@[simp] theorem capture_rxbuf (b : Byte) (s : State) : (capture b s).rxbuf = s.rxbuf.setIfInBounds s.rxCnt.toNat b := rfl
@[simp] theorem capture_att (b : Byte) (s : State) : (capture b s).att = s.att := rfl
@[simp] theorem capture_boCnt (b : Byte) (s : State) : (capture b s).boCnt = s.boCnt := rfl
@[simp] theorem capture_resStatus (b : Byte) (s : State) : (capture b s).resStatus = s.resStatus := rfl
@[simp] theorem capture_resCo2 (b : Byte) (s : State) : (capture b s).resCo2 = s.resCo2 := rfl
@[simp] theorem capture_resTemp (b : Byte) (s : State) : (capture b s).resTemp = s.resTemp := rfl
@[simp] theorem capture_resTt (b : Byte) (s : State) : (capture b s).resTt = s.resTt := rfl
@[simp] theorem capture_resSs (b : Byte) (s : State) : (capture b s).resSs = s.resSs := rfl
@[simp] theorem capture_resUhul (b : Byte) (s : State) : (capture b s).resUhul = s.resUhul := rfl
@[simp] theorem capture_resAtt (b : Byte) (s : State) : (capture b s).resAtt = s.resAtt := rfl
@[simp] theorem capture_params (b : Byte) (s : State) : (capture b s).params = s.params := rfl
@[simp] theorem capture_script (b : Byte) (s : State) : (capture b s).script = s.script := rfl
@[simp] theorem capture_cycle (b : Byte) (s : State) : (capture b s).cycle = s.cycle := rfl
@[simp] theorem capture_sent (b : Byte) (s : State) : (capture b s).sent = s.sent := rfl
@[simp] theorem capture_inputs (b : Byte) (s : State) : (capture b s).inputs = s.inputs := rfl

@[simp] theorem closeWindow_st (s : State) : (closeWindow s).st = .chk := rfl
@[simp] theorem closeWindow_opR (s : State) : (closeWindow s).opR = s.opR := rfl
@[simp] theorem closeWindow_spanR (s : State) : (closeWindow s).spanR = s.spanR := rfl
@[simp] theorem closeWindow_txIdx (s : State) : (closeWindow s).txIdx = s.txIdx := rfl
@[simp] theorem closeWindow_rxCnt (s : State) : (closeWindow s).rxCnt = s.rxCnt := rfl
@[simp] theorem closeWindow_rxbuf (s : State) : (closeWindow s).rxbuf = s.rxbuf := rfl
@[simp] theorem closeWindow_att (s : State) : (closeWindow s).att = s.att := rfl
@[simp] theorem closeWindow_boCnt (s : State) : (closeWindow s).boCnt = s.boCnt := rfl
@[simp] theorem closeWindow_resStatus (s : State) : (closeWindow s).resStatus = s.resStatus := rfl
@[simp] theorem closeWindow_resCo2 (s : State) : (closeWindow s).resCo2 = s.resCo2 := rfl
@[simp] theorem closeWindow_resTemp (s : State) : (closeWindow s).resTemp = s.resTemp := rfl
@[simp] theorem closeWindow_resTt (s : State) : (closeWindow s).resTt = s.resTt := rfl
@[simp] theorem closeWindow_resSs (s : State) : (closeWindow s).resSs = s.resSs := rfl
@[simp] theorem closeWindow_resUhul (s : State) : (closeWindow s).resUhul = s.resUhul := rfl
@[simp] theorem closeWindow_resAtt (s : State) : (closeWindow s).resAtt = s.resAtt := rfl
@[simp] theorem closeWindow_params (s : State) : (closeWindow s).params = s.params := rfl
@[simp] theorem closeWindow_script (s : State) : (closeWindow s).script = s.script := rfl
@[simp] theorem closeWindow_cycle (s : State) : (closeWindow s).cycle = s.cycle := rfl
@[simp] theorem closeWindow_sent (s : State) : (closeWindow s).sent = s.sent := rfl
@[simp] theorem closeWindow_inputs (s : State) : (closeWindow s).inputs = s.inputs := rfl

@[simp] theorem startBackoff_st (s : State) : (startBackoff s).st = .backoff := rfl
@[simp] theorem startBackoff_opR (s : State) : (startBackoff s).opR = s.opR := rfl
@[simp] theorem startBackoff_spanR (s : State) : (startBackoff s).spanR = s.spanR := rfl
@[simp] theorem startBackoff_txIdx (s : State) : (startBackoff s).txIdx = s.txIdx := rfl
@[simp] theorem startBackoff_rxCnt (s : State) : (startBackoff s).rxCnt = s.rxCnt := rfl
@[simp] theorem startBackoff_rxbuf (s : State) : (startBackoff s).rxbuf = s.rxbuf := rfl
@[simp] theorem startBackoff_att (s : State) : (startBackoff s).att = s.att := rfl
@[simp] theorem startBackoff_boCnt (s : State) : (startBackoff s).boCnt = s.params.backoffCycles - 1 := rfl
@[simp] theorem startBackoff_resStatus (s : State) : (startBackoff s).resStatus = s.resStatus := rfl
@[simp] theorem startBackoff_resCo2 (s : State) : (startBackoff s).resCo2 = s.resCo2 := rfl
@[simp] theorem startBackoff_resTemp (s : State) : (startBackoff s).resTemp = s.resTemp := rfl
@[simp] theorem startBackoff_resTt (s : State) : (startBackoff s).resTt = s.resTt := rfl
@[simp] theorem startBackoff_resSs (s : State) : (startBackoff s).resSs = s.resSs := rfl
@[simp] theorem startBackoff_resUhul (s : State) : (startBackoff s).resUhul = s.resUhul := rfl
@[simp] theorem startBackoff_resAtt (s : State) : (startBackoff s).resAtt = s.resAtt := rfl
@[simp] theorem startBackoff_params (s : State) : (startBackoff s).params = s.params := rfl
@[simp] theorem startBackoff_script (s : State) : (startBackoff s).script = s.script := rfl
@[simp] theorem startBackoff_cycle (s : State) : (startBackoff s).cycle = s.cycle := rfl
@[simp] theorem startBackoff_sent (s : State) : (startBackoff s).sent = s.sent := rfl
@[simp] theorem startBackoff_inputs (s : State) : (startBackoff s).inputs = s.inputs := rfl

@[simp] theorem countBackoff_st (s : State) : (countBackoff s).st = s.st := rfl
@[simp] theorem countBackoff_opR (s : State) : (countBackoff s).opR = s.opR := rfl
@[simp] theorem countBackoff_spanR (s : State) : (countBackoff s).spanR = s.spanR := rfl
@[simp] theorem countBackoff_txIdx (s : State) : (countBackoff s).txIdx = s.txIdx := rfl
@[simp] theorem countBackoff_rxCnt (s : State) : (countBackoff s).rxCnt = s.rxCnt := rfl
@[simp] theorem countBackoff_rxbuf (s : State) : (countBackoff s).rxbuf = s.rxbuf := rfl
@[simp] theorem countBackoff_att (s : State) : (countBackoff s).att = s.att := rfl
@[simp] theorem countBackoff_boCnt (s : State) : (countBackoff s).boCnt = s.boCnt - 1 := rfl
@[simp] theorem countBackoff_resStatus (s : State) : (countBackoff s).resStatus = s.resStatus := rfl
@[simp] theorem countBackoff_resCo2 (s : State) : (countBackoff s).resCo2 = s.resCo2 := rfl
@[simp] theorem countBackoff_resTemp (s : State) : (countBackoff s).resTemp = s.resTemp := rfl
@[simp] theorem countBackoff_resTt (s : State) : (countBackoff s).resTt = s.resTt := rfl
@[simp] theorem countBackoff_resSs (s : State) : (countBackoff s).resSs = s.resSs := rfl
@[simp] theorem countBackoff_resUhul (s : State) : (countBackoff s).resUhul = s.resUhul := rfl
@[simp] theorem countBackoff_resAtt (s : State) : (countBackoff s).resAtt = s.resAtt := rfl
@[simp] theorem countBackoff_params (s : State) : (countBackoff s).params = s.params := rfl
@[simp] theorem countBackoff_script (s : State) : (countBackoff s).script = s.script := rfl
@[simp] theorem countBackoff_cycle (s : State) : (countBackoff s).cycle = s.cycle := rfl
@[simp] theorem countBackoff_sent (s : State) : (countBackoff s).sent = s.sent := rfl
@[simp] theorem countBackoff_inputs (s : State) : (countBackoff s).inputs = s.inputs := rfl

@[simp] theorem retry_st (s : State) : (retry s).st = .tx := rfl
@[simp] theorem retry_opR (s : State) : (retry s).opR = s.opR := rfl
@[simp] theorem retry_spanR (s : State) : (retry s).spanR = s.spanR := rfl
@[simp] theorem retry_txIdx (s : State) : (retry s).txIdx = 0 := rfl
@[simp] theorem retry_rxCnt (s : State) : (retry s).rxCnt = s.rxCnt := rfl
@[simp] theorem retry_rxbuf (s : State) : (retry s).rxbuf = s.rxbuf := rfl
@[simp] theorem retry_att (s : State) : (retry s).att = s.att + 1 := rfl
@[simp] theorem retry_boCnt (s : State) : (retry s).boCnt = s.boCnt := rfl
@[simp] theorem retry_resStatus (s : State) : (retry s).resStatus = s.resStatus := rfl
@[simp] theorem retry_resCo2 (s : State) : (retry s).resCo2 = s.resCo2 := rfl
@[simp] theorem retry_resTemp (s : State) : (retry s).resTemp = s.resTemp := rfl
@[simp] theorem retry_resTt (s : State) : (retry s).resTt = s.resTt := rfl
@[simp] theorem retry_resSs (s : State) : (retry s).resSs = s.resSs := rfl
@[simp] theorem retry_resUhul (s : State) : (retry s).resUhul = s.resUhul := rfl
@[simp] theorem retry_resAtt (s : State) : (retry s).resAtt = s.resAtt := rfl
@[simp] theorem retry_params (s : State) : (retry s).params = s.params := rfl
@[simp] theorem retry_script (s : State) : (retry s).script = s.script := rfl
@[simp] theorem retry_cycle (s : State) : (retry s).cycle = s.cycle := rfl
@[simp] theorem retry_sent (s : State) : (retry s).sent = s.sent := rfl
@[simp] theorem retry_inputs (s : State) : (retry s).inputs = s.inputs := rfl

@[simp] theorem recover_st (s : State) : (recover s).st = .idle := rfl
@[simp] theorem recover_opR (s : State) : (recover s).opR = s.opR := rfl
@[simp] theorem recover_spanR (s : State) : (recover s).spanR = s.spanR := rfl
@[simp] theorem recover_txIdx (s : State) : (recover s).txIdx = s.txIdx := rfl
@[simp] theorem recover_rxCnt (s : State) : (recover s).rxCnt = s.rxCnt := rfl
@[simp] theorem recover_rxbuf (s : State) : (recover s).rxbuf = s.rxbuf := rfl
@[simp] theorem recover_att (s : State) : (recover s).att = s.att := rfl
@[simp] theorem recover_boCnt (s : State) : (recover s).boCnt = s.boCnt := rfl
@[simp] theorem recover_resStatus (s : State) : (recover s).resStatus = s.resStatus := rfl
@[simp] theorem recover_resCo2 (s : State) : (recover s).resCo2 = s.resCo2 := rfl
@[simp] theorem recover_resTemp (s : State) : (recover s).resTemp = s.resTemp := rfl
@[simp] theorem recover_resTt (s : State) : (recover s).resTt = s.resTt := rfl
@[simp] theorem recover_resSs (s : State) : (recover s).resSs = s.resSs := rfl
@[simp] theorem recover_resUhul (s : State) : (recover s).resUhul = s.resUhul := rfl
@[simp] theorem recover_resAtt (s : State) : (recover s).resAtt = s.resAtt := rfl
@[simp] theorem recover_params (s : State) : (recover s).params = s.params := rfl
@[simp] theorem recover_script (s : State) : (recover s).script = s.script := rfl
@[simp] theorem recover_cycle (s : State) : (recover s).cycle = s.cycle := rfl
@[simp] theorem recover_sent (s : State) : (recover s).sent = s.sent := rfl
@[simp] theorem recover_inputs (s : State) : (recover s).inputs = s.inputs := rfl

end Sys2Proof.Machine
end

