-- ==== Sys2Proof/Laws/Ops.lean ====
section
/-! SUPPORT. Everything each shared operation can do, one lemma each; provers cite these instead of unfolding. -/

namespace Sys2Proof.Machine

/-- Reading the inputs of a scripted cycle (log 2). -/
theorem inputs_of_script (s : State) {inp : Inputs} {rest : List Inputs} (h : s.script = inp :: rest) :
    s.inputs = inp := by
  simp [State.inputs, h]

/-- A captured byte is read back at its index. -/
theorem capture_read_same (b : Byte) (s : State) {j : Nat} (h : j < 9) (hj : s.rxCnt.toNat = j) :
    (capture b s).rxbuf[j] = b := by
  subst hj
  simp [capture]

/-- A capture leaves every other entry of the buffer alone. -/
theorem capture_read_other (b : Byte) (s : State) {j : Nat} (h : j < 9) (hj : s.rxCnt.toNat ≠ j) :
    (capture b s).rxbuf[j] = s.rxbuf[j] := by
  simp [capture, hj]

theorem afterBackoff_exhausted {s : State} (h : s.params.maxAttempts ≤ s.att) :
    afterBackoff s = finish .absent zeroFields s.att s := by
  simp only [afterBackoff, if_pos h]

theorem afterBackoff_again {s : State} (h : ¬ s.params.maxAttempts ≤ s.att) : afterBackoff s = retry s := by
  simp only [afterBackoff, if_neg h]

/-- What follows a backoff: the absent result or the next attempt. -/
theorem afterBackoff_cases (s : State) :
    (s.params.maxAttempts ≤ s.att ∧ afterBackoff s = finish .absent zeroFields s.att s) ∨
    (¬ s.params.maxAttempts ≤ s.att ∧ afterBackoff s = retry s) := by
  by_cases h : s.params.maxAttempts ≤ s.att
  · exact .inl ⟨h, afterBackoff_exhausted h⟩
  · exact .inr ⟨h, afterBackoff_again h⟩

/-- A failed attempt goes on at once or begins a backoff. -/
theorem fail_cases (s : State) :
    (s.params.backoffCycles = 0 ∧ fail s = afterBackoff s) ∨
    (s.params.backoffCycles ≠ 0 ∧ fail s = startBackoff s) := by
  by_cases h : s.params.backoffCycles = 0
  · exact .inl ⟨h, by simp only [fail, if_pos h]⟩
  · exact .inr ⟨h, by simp only [fail, if_neg h]⟩

/-- A TX cycle waits, offers the next byte, opens the window, or completes. -/
theorem txArm_cases (reads : Bool) (f : Frame) (s : State) :
    (s.inputs.txReady = false ∧ txArm reads f s = s) ∨
    (s.inputs.txReady = true ∧ s.txIdx < 8 ∧
      txArm reads f s = nextByte (transfer (frameByte f s.txIdx) s)) ∨
    (s.inputs.txReady = true ∧ ¬ s.txIdx < 8 ∧ reads = true ∧
      txArm reads f s = openWindow (transfer (frameByte f s.txIdx) s)) ∨
    (s.inputs.txReady = true ∧ ¬ s.txIdx < 8 ∧ reads = false ∧
      txArm reads f s = finish .sent zeroFields s.att (transfer (frameByte f s.txIdx) s)) := by
  cases hr : s.inputs.txReady
  · simp [txArm, hr]
  · by_cases hi : s.txIdx < 8
    · exact .inr (.inl ⟨rfl, hi, by simp only [txArm, hr, if_pos hi, if_true]⟩)
    · cases reads
      · exact .inr (.inr (.inr ⟨rfl, hi, rfl, by
          simp only [txArm, hr, if_neg hi, if_true, endFrame, Bool.false_eq_true, if_false, transfer_att]⟩))
      · exact .inr (.inr (.inl ⟨rfl, hi, rfl, by simp only [txArm, hr, if_neg hi, if_true, endFrame]⟩))

/-- An RX cycle captures or not, and closes the window or not. -/
theorem rxArm_cases (s : State) :
    (s.inputs.rxValid = true ∧ (s.rxCnt + 1 = 9 ∨ s.inputs.rxTimeout = true) ∧
      rxArm s = closeWindow (capture s.inputs.rxData s)) ∨
    (s.inputs.rxValid = true ∧ s.rxCnt + 1 ≠ 9 ∧ s.inputs.rxTimeout = false ∧
      rxArm s = capture s.inputs.rxData s) ∨
    (s.inputs.rxValid = false ∧ (s.rxCnt = 9 ∨ s.inputs.rxTimeout = true) ∧ rxArm s = closeWindow s) ∨
    (s.inputs.rxValid = false ∧ s.rxCnt ≠ 9 ∧ s.inputs.rxTimeout = false ∧ rxArm s = s) := by
  cases hv : s.inputs.rxValid
  · have hc : rxCapture s = s := by simp only [rxCapture, hv, Bool.false_eq_true, if_false]
    by_cases hn : s.rxCnt = 9 ∨ s.inputs.rxTimeout = true
    · exact .inr (.inr (.inl ⟨rfl, hn, by simp only [rxArm, hc, if_pos hn]⟩))
    · exact .inr (.inr (.inr ⟨rfl, fun h => hn (.inl h), by simpa using fun h => hn (.inr h), by
        simp only [rxArm, hc, if_neg hn]⟩))
  · have hc : rxCapture s = capture s.inputs.rxData s := by simp only [rxCapture, hv, if_true]
    by_cases hn : s.rxCnt + 1 = 9 ∨ s.inputs.rxTimeout = true
    · exact .inl ⟨rfl, hn, by simp only [rxArm, hc, capture_rxCnt, if_pos hn]⟩
    · exact .inr (.inl ⟨rfl, fun h => hn (.inl h), by simpa using fun h => hn (.inr h), by
        simp only [rxArm, hc, capture_rxCnt, if_neg hn]⟩)

/-- The CHK cycle completes with OK or fails the attempt. -/
theorem chkArm_cases (fields : Frame → Fields) (s : State) :
    (respValid s.rxCnt s.rxbuf = true ∧ chkArm fields s = finish .ok (fields s.rxbuf) s.att s) ∨
    (respValid s.rxCnt s.rxbuf = false ∧ chkArm fields s = fail s) := by
  cases h : respValid s.rxCnt s.rxbuf <;> simp [chkArm, h]

/-- A BACKOFF cycle counts down or ends the backoff. -/
theorem backoffArm_cases (s : State) :
    (s.boCnt = 0 ∧ backoffArm s = afterBackoff s) ∨ (s.boCnt ≠ 0 ∧ backoffArm s = countBackoff s) := by
  by_cases h : s.boCnt = 0
  · exact .inl ⟨h, by simp only [backoffArm, if_pos h]⟩
  · exact .inr ⟨h, by simp only [backoffArm, if_neg h]⟩

/-- DONE returns to IDLE or holds the result. -/
theorem doneArm_cases (s : State) :
    (s.inputs.rspReady = true ∧ doneArm s = takeResult s) ∨ (s.inputs.rspReady = false ∧ doneArm s = s) := by
  cases h : s.inputs.rspReady <;> simp [doneArm, h]

theorem unlessChanErr_error {arm : State → State} {s : State} (h : s.inputs.chErr = true) :
    unlessChanErr arm s = chanErr s := by
  simp [unlessChanErr, h]

theorem unlessChanErr_calm {arm : State → State} {s : State} (h : s.inputs.chErr = false) :
    unlessChanErr arm s = arm s := by
  simp [unlessChanErr, h]

/-- The byte on offer at an index the frame has. -/
theorem frameByte_of_lt (f : Frame) {idx : BitVec 4} (h : idx.toNat < 9) : frameByte f idx = f[idx.toNat] := by
  simp [frameByte, h]

end Sys2Proof.Machine
end

