-- ==== Sys2Proof/Laws/Exec.lean ====
section
/-! SUPPORT. Every meaning is one cycle of the shared operation with the operation's own code, frame and fields; the
decoder gives the latched operation its own code back. -/

namespace Sys2Proof.Machine

/-- What acceptance does: a reserved code completes at once, any other is latched (R204, R205). -/
def startOf (i : Instr) : State → State :=
  if isReserved i.opcode then illegalOp else accept i.opcode i.span

theorem decodeFields_readAll : decodeFields 0b001 = fieldsAll := by
  funext buf
  rfl

theorem decodeFields_other {op : BitVec 3} (h : op ≠ 0b001) : decodeFields op = fieldsCo2 := by
  funext buf
  exact if_neg h

theorem exec_eq_opCycle (i : Instr) (s : State) :
    exec i s = .next (opCycle (startOf i) (isRead i.opcode) (cmdFrame i.opcode i.span) (decodeFields i.opcode) s) := by
  cases i
  case readAll span => rw [show decodeFields (Instr.readAll span).opcode = fieldsAll from decodeFields_readAll]; rfl
  all_goals
    rw [decodeFields_other (by simp only [Instr.opcode]; decide)]
    rfl

theorem opcode_decodeCw (op : BitVec 3) (span : Half) : (decodeCw op span).opcode = op := by
  unfold decodeCw
  split <;> simp only [Instr.opcode] <;> first | rfl | skip
  rename_i h0 h1 h2 h3 h4 h5 h6
  revert h0 h1 h2 h3 h4 h5 h6
  revert op
  decide

theorem span_decodeCw (op : BitVec 3) (span : Half) : (decodeCw op span).span = span := by
  unfold decodeCw
  split <;> rfl

section Positions

variable (start : State → State) (reads : Bool) (frame : Frame) (fields : Frame → Fields) {s : State}

theorem opCycle_idle (h : s.st = .idle) : opCycle start reads frame fields s = start s := by
  simp [opCycle, h]

theorem opCycle_tx (h : s.st = .tx) :
    opCycle start reads frame fields s = unlessChanErr (txArm reads frame) s := by
  simp [opCycle, h]

theorem opCycle_rx (h : s.st = .rx) : opCycle start reads frame fields s = unlessChanErr rxArm s := by
  simp [opCycle, h]

theorem opCycle_chk (h : s.st = .chk) :
    opCycle start reads frame fields s = unlessChanErr (chkArm fields) s := by
  simp [opCycle, h]

theorem opCycle_backoff (h : s.st = .backoff) :
    opCycle start reads frame fields s = unlessChanErr backoffArm s := by
  simp [opCycle, h]

theorem opCycle_done (h : s.st = .done) : opCycle start reads frame fields s = doneArm s := by
  simp [opCycle, h]

theorem opCycle_unreachable (h : s.st = .code6 ∨ s.st = .code7) :
    opCycle start reads frame fields s = recover s := by
  rcases h with h | h <;> simp [opCycle, h]

end Positions

end Sys2Proof.Machine
end

