-- ==== Sys2Proof/Laws/Step.lean ====
section
/-! SUPPORT. Everything one step can do, said once: the registers after the edge, before the edge is counted. Invariants
are proved by cases on StepCase instead of unfolding the step. -/

namespace Sys2Proof.Machine

/-- The possible outcomes of an edge from `s`, with what led to each (R200 to R215, R222). -/
inductive StepCase (s : State) : State → Prop where
  | reset : s.inputs.rst = true → StepCase s (resetRegisters s)
  | channelError : s.inputs.rst = false → s.st.busy = true → s.inputs.chErr = true → StepCase s (chanErr s)
  | idleWait : s.inputs.rst = false → s.st = .idle → s.inputs.cmdValid = false → StepCase s s
  | illegal : s.inputs.rst = false → s.st = .idle → s.inputs.cmdValid = true → isReserved s.inputs.cmdOp = true →
      StepCase s (illegalOp s)
  | accepted : s.inputs.rst = false → s.st = .idle → s.inputs.cmdValid = true → isReserved s.inputs.cmdOp = false →
      StepCase s (accept s.inputs.cmdOp s.inputs.cmdSpan s)
  | txWait : s.inputs.rst = false → s.inputs.chErr = false → s.st = .tx → s.inputs.txReady = false → StepCase s s
  | txNext : s.inputs.rst = false → s.inputs.chErr = false → s.st = .tx → s.inputs.txReady = true → s.txIdx < 8 →
      StepCase s (nextByte (transfer (frameByte (cmdFrame s.opR s.spanR) s.txIdx) s))
  | txToWindow : s.inputs.rst = false → s.inputs.chErr = false → s.st = .tx → s.inputs.txReady = true →
      ¬ s.txIdx < 8 → isRead s.opR = true →
      StepCase s (openWindow (transfer (frameByte (cmdFrame s.opR s.spanR) s.txIdx) s))
  | txSent : s.inputs.rst = false → s.inputs.chErr = false → s.st = .tx → s.inputs.txReady = true →
      ¬ s.txIdx < 8 → isRead s.opR = false →
      StepCase s (finish .sent zeroFields s.att (transfer (frameByte (cmdFrame s.opR s.spanR) s.txIdx) s))
  | rxCaptureClose : s.inputs.rst = false → s.inputs.chErr = false → s.st = .rx → s.inputs.rxValid = true →
      (s.rxCnt + 1 = 9 ∨ s.inputs.rxTimeout = true) → StepCase s (closeWindow (capture s.inputs.rxData s))
  | rxCaptureStay : s.inputs.rst = false → s.inputs.chErr = false → s.st = .rx → s.inputs.rxValid = true →
      s.rxCnt + 1 ≠ 9 → s.inputs.rxTimeout = false → StepCase s (capture s.inputs.rxData s)
  | rxClose : s.inputs.rst = false → s.inputs.chErr = false → s.st = .rx → s.inputs.rxValid = false →
      (s.rxCnt = 9 ∨ s.inputs.rxTimeout = true) → StepCase s (closeWindow s)
  | rxWait : s.inputs.rst = false → s.inputs.chErr = false → s.st = .rx → s.inputs.rxValid = false →
      s.rxCnt ≠ 9 → s.inputs.rxTimeout = false → StepCase s s
  | valid : s.inputs.rst = false → s.inputs.chErr = false → s.st = .chk → respValid s.rxCnt s.rxbuf = true →
      StepCase s (finish .ok (decodeFields s.opR s.rxbuf) s.att s)
  | failedBackoff : s.inputs.rst = false → s.inputs.chErr = false → s.st = .chk →
      respValid s.rxCnt s.rxbuf = false → s.params.backoffCycles ≠ 0 → StepCase s (startBackoff s)
  | failedAbsent : s.inputs.rst = false → s.inputs.chErr = false → s.st = .chk →
      respValid s.rxCnt s.rxbuf = false → s.params.backoffCycles = 0 → s.params.maxAttempts ≤ s.att →
      StepCase s (finish .absent zeroFields s.att s)
  | failedRetry : s.inputs.rst = false → s.inputs.chErr = false → s.st = .chk →
      respValid s.rxCnt s.rxbuf = false → s.params.backoffCycles = 0 → ¬ s.params.maxAttempts ≤ s.att →
      StepCase s (retry s)
  | backoffCount : s.inputs.rst = false → s.inputs.chErr = false → s.st = .backoff → s.boCnt ≠ 0 →
      StepCase s (countBackoff s)
  | backoffAbsent : s.inputs.rst = false → s.inputs.chErr = false → s.st = .backoff → s.boCnt = 0 →
      s.params.maxAttempts ≤ s.att → StepCase s (finish .absent zeroFields s.att s)
  | backoffRetry : s.inputs.rst = false → s.inputs.chErr = false → s.st = .backoff → s.boCnt = 0 →
      ¬ s.params.maxAttempts ≤ s.att → StepCase s (retry s)
  | taken : s.inputs.rst = false → s.st = .done → s.inputs.rspReady = true → StepCase s (takeResult s)
  | held : s.inputs.rst = false → s.st = .done → s.inputs.rspReady = false → StepCase s s
  | recovered : s.inputs.rst = false → (s.st = .code6 ∨ s.st = .code7) → StepCase s (recover s)

/-- The TX, RX, CHK and BACKOFF cycles of the latched operation. -/
theorem busy_case (start : State → State) {s : State} (hr : s.inputs.rst = false) (hb : s.st.busy = true) :
    StepCase s (opCycle start (isRead s.opR) (cmdFrame s.opR s.spanR) (decodeFields s.opR) s) := by
  cases he : s.inputs.chErr
  case true =>
    have hx : opCycle start (isRead s.opR) (cmdFrame s.opR s.spanR) (decodeFields s.opR) s = chanErr s := by
      cases hs : s.st <;> simp only [hs, Fsm.busy, Bool.false_eq_true] at hb <;>
        simp only [opCycle, hs, unlessChanErr_error he]
    exact hx ▸ .channelError hr hb he
  case false =>
    cases hs : s.st <;> rw [hs] at hb <;> try cases hb
    · rw [opCycle_tx _ _ _ _ hs, unlessChanErr_calm he]
      rcases txArm_cases (isRead s.opR) (cmdFrame s.opR s.spanR) s with
        ⟨h, e⟩ | ⟨h, hi, e⟩ | ⟨h, hi, ho, e⟩ | ⟨h, hi, ho, e⟩ <;> rw [e]
      · exact .txWait hr he hs h
      · exact .txNext hr he hs h hi
      · exact .txToWindow hr he hs h hi ho
      · exact .txSent hr he hs h hi ho
    · rw [opCycle_rx _ _ _ _ hs, unlessChanErr_calm he]
      rcases rxArm_cases s with ⟨h, hc, e⟩ | ⟨h, hn, ht, e⟩ | ⟨h, hc, e⟩ | ⟨h, hn, ht, e⟩ <;> rw [e]
      · exact .rxCaptureClose hr he hs h hc
      · exact .rxCaptureStay hr he hs h hn ht
      · exact .rxClose hr he hs h hc
      · exact .rxWait hr he hs h hn ht
    · rw [opCycle_chk _ _ _ _ hs, unlessChanErr_calm he]
      rcases chkArm_cases (decodeFields s.opR) s with ⟨h, e⟩ | ⟨h, e⟩ <;> rw [e]
      · exact .valid hr he hs h
      · rcases fail_cases s with ⟨hz, e⟩ | ⟨hz, e⟩ <;> rw [e]
        · rcases afterBackoff_cases s with ⟨ha, e⟩ | ⟨ha, e⟩ <;> rw [e]
          · exact .failedAbsent hr he hs h hz ha
          · exact .failedRetry hr he hs h hz ha
        · exact .failedBackoff hr he hs h hz
    · rw [opCycle_backoff _ _ _ _ hs, unlessChanErr_calm he]
      rcases backoffArm_cases s with ⟨hz, e⟩ | ⟨hz, e⟩ <;> rw [e]
      · rcases afterBackoff_cases s with ⟨ha, e⟩ | ⟨ha, e⟩ <;> rw [e]
        · exact .backoffAbsent hr he hs hz ha
        · exact .backoffRetry hr he hs hz ha
      · exact .backoffCount hr he hs hz

/-- The DONE cycle and the unreachable codes, where no operation is running. -/
theorem between_case {s : State} (hr : s.inputs.rst = false)
    (hs : s.st = .done ∨ s.st = .code6 ∨ s.st = .code7) : StepCase s (betweenOps s) := by
  rcases hs with hs | hs | hs
  · rw [show betweenOps s = doneArm s by simp only [betweenOps, hs]]
    rcases doneArm_cases s with ⟨h, e⟩ | ⟨h, e⟩ <;> rw [e]
    · exact .taken hr hs h
    · exact .held hr hs h
  · rw [show betweenOps s = recover s by simp only [betweenOps, hs]]
    exact .recovered hr (.inl hs)
  · rw [show betweenOps s = recover s by simp only [betweenOps, hs]]
    exact .recovered hr (.inr hs)

/-- Every step answers a next state, and it is one of the cases, with the edge counted. -/
theorem step_next (s : State) : ∃ u, StepCase s u ∧ step s = .next u.tick := by
  cases hr : s.inputs.rst
  case true => exact ⟨_, .reset hr, by simp [step, hr]⟩
  case false =>
    have hstep : step s = match s.current with
        | some i => ticked (exec i s)
        | none => .next (betweenOps s).tick := by
      unfold step
      exact if_neg (by rw [hr]; nofun)
    rw [hstep]
    cases hs : s.st
    case idle =>
      cases hv : s.inputs.cmdValid
      · exact ⟨s, .idleWait hr hs hv, by simp [State.current, hs, hv, betweenOps]⟩
      · have hx : startOf (decodeCw s.inputs.cmdOp s.inputs.cmdSpan) s =
            if isReserved s.inputs.cmdOp then illegalOp s else accept s.inputs.cmdOp s.inputs.cmdSpan s := by
          simp only [startOf, opcode_decodeCw, span_decodeCw]
          split <;> rfl
        simp only [State.current, hs, hv, if_true, exec_eq_opCycle, opCycle_idle _ _ _ _ hs, ticked, hx]
        cases hi : isReserved s.inputs.cmdOp
        · exact ⟨_, .accepted hr hs hv hi, rfl⟩
        · exact ⟨_, .illegal hr hs hv hi, rfl⟩
    case done => exact ⟨_, between_case hr (.inl hs), by simp [State.current, hs, Fsm.busy]⟩
    case code6 => exact ⟨_, between_case hr (.inr (.inl hs)), by simp [State.current, hs, Fsm.busy]⟩
    case code7 => exact ⟨_, between_case hr (.inr (.inr hs)), by simp [State.current, hs, Fsm.busy]⟩
    all_goals
      exact ⟨_, busy_case (startOf (decodeCw s.opR s.spanR)) hr (by rw [hs]; rfl), by
        simp only [State.current, hs, Fsm.busy, reduceCtorEq, if_false, if_true, exec_eq_opCycle, ticked,
          opcode_decodeCw, span_decodeCw]⟩

/-- What a step that answers `t` has done. -/
theorem step_cases {s t : State} (h : step s = .next t) : ∃ u, StepCase s u ∧ t = u.tick := by
  obtain ⟨u, hu, e⟩ := step_next s
  exact ⟨u, hu, by rw [h] at e; cases e; rfl⟩

end Sys2Proof.Machine
end

