-- ==== Sys2Proof/Laws/Run.lean ====
section
/-! SUPPORT. Running the machine for several edges. -/

namespace Sys2Proof.Machine

theorem run_zero (s : State) : core.run 0 s = .next s := rfl

/-- One edge, then the rest. -/
theorem run_succ {s t : State} (n : Nat) (h : step s = .next t) : core.run (n + 1) s = core.run n t := by
  simp only [Host.Core.run]
  rw [show core.step s = .next t from h]

/-- A run of `m + n` edges is a run of `m` and then one of `n`. -/
theorem run_add {s t : State} (m n : Nat) (h : core.run m s = .next t) : core.run (m + n) s = core.run n t := by
  induction m generalizing s with
  | zero =>
    cases h
    simp
  | succ m ih =>
    cases hs : step s with
    | next u =>
      rw [run_succ m hs] at h
      rw [show m + 1 + n = (m + n) + 1 by omega, run_succ _ hs, ih h]
    | fault r =>
      exact absurd h (by simp only [Host.Core.run, show core.step s = .fault r from hs]; nofun)
    | refused r =>
      exact absurd h (by simp only [Host.Core.run, show core.step s = .refused r from hs]; nofun)

/-- `n` edges lead from `s` to `t`, and no result is offered before. -/
def Passes (n : Nat) (s t : State) : Prop :=
  core.run n s = .next t ∧ ∀ k < n, ∃ u, core.run k s = .next u ∧ u.st ≠ .done

theorem Passes.refl (s : State) : Passes 0 s s := ⟨rfl, nofun⟩

theorem Passes.cons {s t u : State} {n : Nat} (hd : s.st ≠ .done) (h : step s = .next t) (h2 : Passes n t u) :
    Passes (n + 1) s u := by
  refine ⟨by rw [run_succ n h, h2.1], fun k hk => ?_⟩
  cases k with
  | zero => exact ⟨s, rfl, hd⟩
  | succ k =>
    rw [run_succ k h]
    exact h2.2 k (by omega)

theorem Passes.one {s t : State} (hd : s.st ≠ .done) (h : step s = .next t) : Passes 1 s t :=
  .cons hd h (.refl t)

theorem Passes.trans {s t u : State} {m n : Nat} (h1 : Passes m s t) (h2 : Passes n t u) :
    Passes (m + n) s u := by
  refine ⟨by rw [run_add m n h1.1, h2.1], fun k hk => ?_⟩
  by_cases hm : k < m
  · exact h1.2 k hm
  · obtain ⟨v, hv⟩ := h2.2 (k - m) (by omega)
    refine ⟨v, ?_, hv.2⟩
    rw [show k = m + (k - m) by omega, run_add m _ h1.1, hv.1]

theorem Passes.firstDone {s t : State} {n : Nat} (h : Passes n s t) (ht : t.st = .done) : firstDone n s t :=
  ⟨h.1, ht, h.2⟩

end Sys2Proof.Machine
end

