-- ==== Sys2Proof/Laws/Phases.lean ====
section
/-! SUPPORT. The phases of an operation as runs: the frame, the read window, the backoff. -/

namespace Sys2Proof.Machine

theorem step_tx_wait {s : State} {inp : Inputs} {rest : List Inputs} (hs : s.st = .tx)
    (hsc : s.script = inp :: rest) (hc : calm inp) (hr : inp.txReady = false) : step s = .next s.tick := by
  have hi := inputs_of_script s hsc
  obtain ⟨u, hu, e⟩ := step_next s
  rw [e]
  cases hu <;> simp_all [calm]

theorem step_tx_next {s : State} {inp : Inputs} {rest : List Inputs} (hs : s.st = .tx)
    (hsc : s.script = inp :: rest) (hc : calm inp) (hr : inp.txReady = true) (hx : s.txIdx < 8) :
    step s = .next (nextByte (transfer (frameByte (cmdFrame s.opR s.spanR) s.txIdx) s)).tick := by
  have hi := inputs_of_script s hsc
  obtain ⟨u, hu, e⟩ := step_next s
  rw [e]
  cases hu
  case txToWindow h _ => exact absurd hx h
  case txSent h _ => exact absurd hx h
  all_goals simp_all [calm]

theorem frame_take_last (f : Frame) : f.toList.take 8 ++ [f[8]] = f.toList := by
  have h : f.toList.drop 8 = [f[8]] := by
    rw [List.drop_eq_getElem_cons (by simp)]
    simp
  rw [← h, List.take_append_drop]

/-- The cycles of an attempt up to the ninth byte: the bytes so far are on the wire. -/
theorem tx_stalls (rest : List Inputs) : ∀ (stalls : List Inputs) (s : State) (base : List Byte) (j : Nat),
    s.st = .tx → s.script = stalls ++ rest → (∀ inp ∈ stalls, calm inp) → s.txIdx.toNat = j →
    j + stalls.countP (·.txReady) ≤ 8 → s.sent = base ++ (cmdFrame s.opR s.spanR).toList.take j →
    Passes stalls.length s { s with
      txIdx := BitVec.ofNat 4 (j + stalls.countP (·.txReady))
      sent := base ++ (cmdFrame s.opR s.spanR).toList.take (j + stalls.countP (·.txReady))
      script := rest, cycle := s.cycle + stalls.length } := by
  intro stalls
  induction stalls with
  | nil =>
    intro s base j _ hsc _ hj _ hb
    have h1 : BitVec.ofNat 4 j = s.txIdx := by rw [← hj]; simp
    have h2 : rest = s.script := by rw [hsc]; rfl
    simp only [List.countP_nil, Nat.add_zero, List.length_nil, h1, h2, ← hb]
    exact .refl s
  | cons inp stalls ih =>
    intro s base j hs hsc hc hj h8 hb
    have hci := hc inp (List.mem_cons_self ..)
    have hcr : ∀ x ∈ stalls, calm x := fun x hx => hc x (List.mem_cons_of_mem _ hx)
    have hd : s.st ≠ .done := by rw [hs]; nofun
    have htail : s.script.tail = stalls ++ rest := by rw [hsc]; rfl
    cases hr : inp.txReady with
    | false =>
      have hcount : (inp :: stalls).countP (·.txReady) = stalls.countP (·.txReady) := by simp [hr]
      rw [hcount] at h8 ⊢
      have hstep := step_tx_wait hs (by rw [hsc]; rfl) hci hr
      have h := ih s.tick base j hs (by simpa using htail) hcr hj h8 hb
      refine .cons hd hstep ?_
      rw [show s.cycle + (inp :: stalls).length = s.tick.cycle + stalls.length by simp; omega]
      exact h
    | true =>
      have hcount : (inp :: stalls).countP (·.txReady) = stalls.countP (·.txReady) + 1 := by simp [hr]
      rw [hcount] at h8 ⊢
      have hlt : s.txIdx < 8 := by rw [BitVec.lt_def]; simp; omega
      have hstep := step_tx_next hs (by rw [hsc]; rfl) hci hr hlt
      have hj9 : s.txIdx.toNat < 9 := by omega
      rw [frameByte_of_lt _ hj9] at hstep
      have hb2 : s.sent ++ [(cmdFrame s.opR s.spanR)[s.txIdx.toNat]] =
          base ++ (cmdFrame s.opR s.spanR).toList.take (j + 1) := by
        rw [hb, List.append_assoc, List.take_add_one]
        simp [← hj, hj9]
      have h := ih (nextByte (transfer (cmdFrame s.opR s.spanR)[s.txIdx.toNat] s)).tick base (j + 1) hs
        (by simpa using htail) hcr (by simp; omega) (by omega) hb2
      refine .cons hd hstep ?_
      rw [show s.cycle + (inp :: stalls).length = s.tick.cycle + stalls.length by simp; omega,
        show j + (stalls.countP (·.txReady) + 1) = j + 1 + stalls.countP (·.txReady) by omega]
      exact h

/-- One attempt's frame, from its first byte to the edge that ends it (R206, R207). -/
theorem tx_phase {s : State} {txs rest : List Inputs} (hs : s.st = .tx) (h0 : s.txIdx = 0)
    (hsc : s.script = txs ++ rest) (ht : transfersFrame txs) :
    Passes txs.length s (endFrame (isRead s.opR) { s with
      txIdx := 8, sent := s.sent ++ (cmdFrame s.opR s.spanR).toList
      script := rest, cycle := s.cycle + txs.length }) := by
  obtain ⟨hc, stalls, last, rfl, hn, hl⟩ := ht
  have h1 := tx_stalls (last :: rest) stalls s s.sent 0 hs (by rw [hsc]; simp)
    (fun x hx => hc x (by simp [hx])) (by rw [h0]; rfl) (by omega) (by simp)
  rw [hn] at h1
  rw [List.length_append]
  refine .trans h1 (.one (by simp [hs]) ?_)
  obtain ⟨u, hu, e⟩ := step_next { s with
      txIdx := BitVec.ofNat 4 (0 + 8)
      sent := s.sent ++ (cmdFrame s.opR s.spanR).toList.take (0 + 8)
      script := last :: rest, cycle := s.cycle + stalls.length }
  rw [e]
  have hcl : calm last := hc last (by simp)
  have hb : s.sent ++ (cmdFrame s.opR s.spanR).toList.take 8 ++ [(cmdFrame s.opR s.spanR)[8]] =
      s.sent ++ (cmdFrame s.opR s.spanR).toList := by
    rw [List.append_assoc, frame_take_last]
  cases hu
  case txToWindow h1 h2 h3 h4 h5 h6 =>
    have h6' : isRead s.opR = true := h6
    rw [h6']
    simp only [endFrame, if_true, ← hb]
    rfl
  case txSent h1 h2 h3 h4 h5 h6 =>
    have h6' : isRead s.opR = false := h6
    rw [h6']
    simp only [endFrame, Bool.false_eq_true, if_false, ← hb]
    rfl
  case txNext h1 h2 h3 h4 h5 => exact absurd h5 (show ¬ BitVec.ofNat 4 (0 + 8) < 8 by decide)
  all_goals simp_all [State.inputs, calm]

/-- The response buffer after these bytes are stored from index `j` on. -/
def fill : Frame → List Byte → Nat → Frame
  | buf, [], _ => buf
  | buf, b :: bs, j => fill (buf.setIfInBounds j b) bs (j + 1)

theorem delivered_cons (inp : Inputs) (rxs : List Inputs) :
    delivered (inp :: rxs) = (if inp.rxValid then [inp.rxData] else []) ++ delivered rxs := by
  cases h : inp.rxValid <;> simp [delivered, h]

theorem delivered_append (a b : List Inputs) : delivered (a ++ b) = delivered a ++ delivered b := by
  simp [delivered]

theorem fill_append (buf : Frame) (a b : List Byte) (j : Nat) :
    fill buf (a ++ b) j = fill (fill buf a j) b (j + a.length) := by
  induction a generalizing buf j with
  | nil => rfl
  | cons x a ih =>
    simp only [List.cons_append, fill, ih, List.length_cons]
    congr 1
    omega

/-- A window's cycles before the last: the bytes so far are stored in order. -/
theorem rx_waits (rest : List Inputs) : ∀ (waits : List Inputs) (s : State) (j : Nat),
    s.st = .rx → s.script = waits ++ rest → (∀ inp ∈ waits, calm inp) → (∀ inp ∈ waits, inp.rxTimeout = false) →
    s.rxCnt.toNat = j → j + (delivered waits).length ≤ 8 →
    Passes waits.length s { s with
      rxCnt := BitVec.ofNat 4 (j + (delivered waits).length), rxbuf := fill s.rxbuf (delivered waits) j
      script := rest, cycle := s.cycle + waits.length } := by
  intro waits
  induction waits with
  | nil =>
    intro s j _ hsc _ _ hj _
    have h1 : BitVec.ofNat 4 j = s.rxCnt := by rw [← hj]; simp
    have h2 : rest = s.script := by rw [hsc]; rfl
    simp only [delivered, List.filter_nil, List.map_nil, List.length_nil, Nat.add_zero, h1, h2]
    exact .refl s
  | cons inp waits ih =>
    intro s j hs hsc hc ht hj h8
    have hci := hc inp (List.mem_cons_self ..)
    have hti := ht inp (List.mem_cons_self ..)
    have hcr : ∀ x ∈ waits, calm x := fun x hx => hc x (List.mem_cons_of_mem _ hx)
    have htr : ∀ x ∈ waits, x.rxTimeout = false := fun x hx => ht x (List.mem_cons_of_mem _ hx)
    have hd : s.st ≠ .done := by rw [hs]; nofun
    have htail : s.script.tail = waits ++ rest := by rw [hsc]; rfl
    have hi := inputs_of_script s (show s.script = inp :: (waits ++ rest) by rw [hsc]; rfl)
    have hn9 : s.rxCnt ≠ 9 := fun h => by rw [h] at hj; simp at hj; omega
    obtain ⟨u, hu, e⟩ := step_next s
    cases hr : inp.rxValid with
    | false =>
      have hdel : delivered (inp :: waits) = delivered waits := by rw [delivered_cons]; simp [hr]
      rw [hdel] at h8 ⊢
      have hstep : step s = .next s.tick := by
        rw [e]
        cases hu <;> simp_all [calm]
      have h := ih s.tick j hs (by simpa using htail) hcr htr hj h8
      refine .cons hd hstep ?_
      rw [show s.cycle + (inp :: waits).length = s.tick.cycle + waits.length by simp; omega]
      exact h
    | true =>
      have hdel : delivered (inp :: waits) = inp.rxData :: delivered waits := by rw [delivered_cons]; simp [hr]
      rw [hdel, List.length_cons] at h8
      have hsum : (s.rxCnt + 1).toNat = j + 1 := by simp; omega
      have hs9 : s.rxCnt + 1 ≠ 9 := fun h => by rw [h] at hsum; simp at hsum; omega
      have hstep : step s = .next (capture inp.rxData s).tick := by
        rw [e]
        cases hu <;> simp_all [calm]
      have h := ih (capture inp.rxData s).tick (j + 1) hs (by simpa using htail) hcr htr hsum (by omega)
      refine .cons hd hstep ?_
      rw [show s.cycle + (inp :: waits).length = s.tick.cycle + waits.length by simp; omega, hdel, List.length_cons,
        show j + ((delivered waits).length + 1) = j + 1 + (delivered waits).length by omega]
      simpa [fill, hj] using h

/-- One read window, from its opening to the edge that closes it (R208, R209). -/
theorem rx_phase {s : State} {rxs rest : List Inputs} {bytes : List Byte} (hs : s.st = .rx) (h0 : s.rxCnt = 0)
    (hsc : s.script = rxs ++ rest) (hw : closesWindow rxs bytes) :
    bytes.length ≤ 9 ∧ Passes rxs.length s { s with
      st := .chk, rxCnt := BitVec.ofNat 4 bytes.length, rxbuf := fill s.rxbuf bytes 0
      script := rest, cycle := s.cycle + rxs.length } := by
  obtain ⟨hc, rfl, waits, last, rfl, ht, h8, hlast⟩ := hw
  have h1 := rx_waits (last :: rest) waits s 0 hs (by rw [hsc]; simp) (fun x hx => hc x (by simp [hx])) ht
    (by rw [h0]; rfl) (by omega)
  have hcl : calm last := hc last (by simp)
  rw [Nat.zero_add] at h1
  obtain ⟨u, hu, e⟩ := step_next { s with
      rxCnt := BitVec.ofNat 4 (delivered waits).length, rxbuf := fill s.rxbuf (delivered waits) 0
      script := last :: rest, cycle := s.cycle + waits.length }
  have hdel : delivered (waits ++ [last]) = delivered waits ++ (if last.rxValid then [last.rxData] else []) := by
    rw [delivered_append, delivered_cons]
    simp [delivered]
  cases hv : last.rxValid with
  | true =>
    rw [hv, if_pos rfl] at hdel
    rw [hdel] at hlast ⊢
    simp only [List.length_append, List.length_cons, List.length_nil] at hlast ⊢
    refine ⟨by omega, .trans h1 (.one (by simp [hs]) ?_)⟩
    have hk : BitVec.ofNat 4 (delivered waits).length + 1 = BitVec.ofNat 4 ((delivered waits).length + 1) := by
      apply BitVec.eq_of_toNat_eq
      simp
    have hn : (BitVec.ofNat 4 (delivered waits).length).toNat = (delivered waits).length := by simp; omega
    have hcond : BitVec.ofNat 4 (delivered waits).length + 1 = 9 ∨ last.rxTimeout = true := by
      rcases hlast with h | h
      · exact .inl (by rw [hk, h]; rfl)
      · exact .inr h
    rw [e, fill_append]
    cases hu
    case rxCaptureClose =>
      simp only [closeWindow, capture, State.tick, State.inputs, fill, hn, hk, Nat.zero_add, List.tail_cons,
        Nat.add_assoc]
    case rxCaptureStay g1 g2 g3 g4 g5 g6 =>
      rcases hcond with h | h
      · exact absurd h g5
      · exact absurd h (by simpa [State.inputs] using g6)
    all_goals simp_all [State.inputs, calm]
  | false =>
    rw [hv] at hdel
    simp only [Bool.false_eq_true, if_false, List.append_nil] at hdel
    rw [hdel] at hlast ⊢
    refine ⟨by omega, ?_⟩
    rw [List.length_append]
    refine .trans h1 (.one (by simp [hs]) ?_)
    have hto : last.rxTimeout = true := by
      rcases hlast with h | h
      · omega
      · exact h
    rw [e]
    cases hu
    case rxClose => rfl
    all_goals simp_all [State.inputs, calm]

/-- One attempt of a read operation, from its first byte to the check of its window (R206 to R209). -/
theorem attempt_phase {s : State} {txs rxs rest : List Inputs} {bytes : List Byte} (hs : s.st = .tx)
    (h0 : s.txIdx = 0) (hr : isRead s.opR = true) (hsc : s.script = txs ++ (rxs ++ rest))
    (ht : transfersFrame txs) (hw : closesWindow rxs bytes) :
    bytes.length ≤ 9 ∧ Passes (txs.length + rxs.length) s { s with
      st := .chk, txIdx := 8, rxCnt := BitVec.ofNat 4 bytes.length, rxbuf := fill s.rxbuf bytes 0
      sent := s.sent ++ (cmdFrame s.opR s.spanR).toList
      script := rest, cycle := s.cycle + txs.length + rxs.length } := by
  have h1 := tx_phase hs h0 hsc ht
  rw [hr] at h1
  have h2 := rx_phase (s := openWindow { s with
    txIdx := 8, sent := s.sent ++ (cmdFrame s.opR s.spanR).toList
    script := rxs ++ rest, cycle := s.cycle + txs.length }) rfl rfl rfl hw
  exact ⟨h2.1, h1.trans h2.2⟩

/-- Nine bytes stored from index 0 are the buffer. -/
theorem fill_frame (buf f : Frame) : fill buf f.toList 0 = f := by
  ext j hj
  have : f.toList = [f[0], f[1], f[2], f[3], f[4], f[5], f[6], f[7], f[8]] := by
    apply List.ext_getElem
    · simp
    · intro k h1 h2
      have : k < 9 := by simpa using h1
      have hk : k = 0 ∨ k = 1 ∨ k = 2 ∨ k = 3 ∨ k = 4 ∨ k = 5 ∨ k = 6 ∨ k = 7 ∨ k = 8 := by omega
      rcases hk with rfl | rfl | rfl | rfl | rfl | rfl | rfl | rfl | rfl <;> simp
  rw [this]
  have hk : j = 0 ∨ j = 1 ∨ j = 2 ∨ j = 3 ∨ j = 4 ∨ j = 5 ∨ j = 6 ∨ j = 7 ∨ j = 8 := by omega
  rcases hk with rfl | rfl | rfl | rfl | rfl | rfl | rfl | rfl | rfl <;> simp [fill]

theorem afterBackoff_tick (s : State) : (afterBackoff s).tick = afterBackoff s.tick := by
  rcases afterBackoff_cases s with ⟨h, e⟩ | ⟨h, e⟩ <;> rw [e]
  · rw [afterBackoff_exhausted (by exact h)]
    rfl
  · rw [afterBackoff_again (by exact h)]
    rfl

/-- A backoff, from its first cycle to the edge that ends it (R212). -/
theorem backoff_phase (rest : List Inputs) : ∀ (waits : List Inputs) (s : State),
    s.st = .backoff → s.script = waits ++ rest → (∀ inp ∈ waits, calm inp) → s.boCnt.toNat + 1 = waits.length →
    Passes waits.length s (afterBackoff { s with boCnt := 0, script := rest, cycle := s.cycle + waits.length }) := by
  intro waits
  induction waits with
  | nil =>
    intro s _ _ _ h
    simp at h
  | cons inp waits ih =>
    intro s hs hsc hc hn
    have hci := hc inp (List.mem_cons_self ..)
    have hi := inputs_of_script s (show s.script = inp :: (waits ++ rest) by rw [hsc]; rfl)
    have hd : s.st ≠ .done := by rw [hs]; nofun
    have hbo : backoffArm s = if s.boCnt = 0 then afterBackoff s else countBackoff s := rfl
    have hstep : step s = .next (backoffArm s).tick := by
      obtain ⟨u, hu, e⟩ := step_next s
      rw [e]
      cases hu
      case backoffAbsent h5 h6 => rw [hbo, if_pos h5, afterBackoff_exhausted h6]
      case backoffRetry h5 h6 => rw [hbo, if_pos h5, afterBackoff_again h6]
      case backoffCount h5 => rw [hbo, if_neg h5]
      all_goals simp_all [calm]
    by_cases hz : s.boCnt = 0
    · have hw : waits = [] := by
        rw [hz] at hn
        simpa using hn.symm
      subst hw
      rw [hbo, if_pos hz, afterBackoff_tick] at hstep
      refine .cons hd hstep ?_
      have : s.tick = { s with boCnt := 0, script := rest, cycle := s.cycle + [inp].length } := by
        rw [← hz]
        simp [State.tick, hsc]
      rw [this]
      exact .refl _
    · rw [hbo, if_neg hz] at hstep
      have hz' : s.boCnt.toNat ≠ 0 := fun h => hz (BitVec.eq_of_toNat_eq h)
      have h := ih (countBackoff s).tick hs (by simp [hsc]) (fun x hx => hc x (List.mem_cons_of_mem _ hx))
        (by simp at hn ⊢; omega)
      refine .cons hd hstep ?_
      rw [show s.cycle + (inp :: waits).length = s.tick.cycle + waits.length by simp; omega]
      exact h

end Sys2Proof.Machine
end

