-- ==== Sys2Proof/Laws/Operation.lean ====
section
/-! SUPPORT. The states of one operation: a run inside an operation, without a reset, stays among them. -/

namespace Sys2Proof.Machine

/-- Without a reset a running operation goes on or completes (R219). -/
theorem busy_step {s t : State} (hb : s.st.busy = true) (hr : s.inputs.rst = false) (h : step s = .next t) :
    t.st.busy = true ∨ t.st = .done := by
  obtain ⟨u, hu, rfl⟩ := step_cases h
  cases hu
  case recovered hr' hc => rcases hc with hc | hc <;> simp [hc, Fsm.busy] at hb
  all_goals simp_all [Fsm.busy, chanErr]

/-- A run of a running operation in which no cycle is a reset stays in the operation. -/
theorem InOperation.passes {s0 : State} : ∀ (n : Nat) (s t : State), InOperation s0 s → s.st.busy = true →
    Passes n s t → n ≤ s.script.length → (∀ inp ∈ s.script.take n, inp.rst = false) → InOperation s0 t
  | 0, s, t, h, _, hp, _, _ => by
    cases hp.1
    exact h
  | n + 1, s, t, h, hb, hp, hl, hr => by
    cases hsc : s.script with
    | nil => simp [hsc] at hl
    | cons inp rest =>
      rw [hsc] at hl hr
      obtain ⟨u, hu, he⟩ := step_next s
      have hi : s.inputs.rst = false := by rw [inputs_of_script s hsc]; exact hr inp (by simp)
      have hin := InOperation.cycle s u.tick h hb hi he
      have hpt : core.run n u.tick = .next t := by rw [← run_succ n he]; exact hp.1
      have hus : u.script = inp :: rest := by rw [← hsc]; cases hu <;> rfl
      rcases busy_step hb hi he with hbu | hd
      · refine InOperation.passes n u.tick t hin hbu ⟨hpt, fun k hk => ?_⟩ ?_ ?_
        · rw [← run_succ k he]
          exact hp.2 (k + 1) (by omega)
        · rw [tick_script, hus]
          simpa using hl
        · intro x hx
          rw [tick_script, hus] at hx
          exact hr x (by simpa using .inr hx)
      · cases n with
        | zero => cases hpt; exact hin
        | succ n =>
          obtain ⟨v, hv, hvd⟩ := hp.2 1 (by omega)
          rw [run_succ 0 he] at hv
          cases hv
          exact absurd hd hvd

end Sys2Proof.Machine
end

