-- ==== Sys2Proof/Laws/PerInstr.lean ====
section
/-! SUPPORT. A statement about every operation as syntax: its code and span decode to it (R82, R93). -/

namespace Sys2Proof.Laws.DecodeCw

/-- The operation presented with this code and span is this operation. -/
def Statement (i : Instr) : Prop := decodeCw i.opcode i.span = i

theorem readCo2 (span : Half) : Statement (.readCo2 span) := rfl
theorem readAll (span : Half) : Statement (.readAll span) := rfl
theorem calZero (span : Half) : Statement (.calZero span) := rfl
theorem calSpan (span : Half) : Statement (.calSpan span) := rfl
theorem autocalOn (span : Half) : Statement (.autocalOn span) := rfl
theorem autocalOff (span : Half) : Statement (.autocalOff span) := rfl
theorem op6 (span : Half) : Statement (.op6 span) := rfl
theorem op7 (span : Half) : Statement (.op7 span) := rfl

end Sys2Proof.Laws.DecodeCw
end

