-- ==== Sys2Proof/Machine/Notation.lean ====
section
/-! DEFINITION. The spec's notation for stimulus and results as data (R92; D26): it has no behaviour of its own. -/

namespace Sys2Proof.Machine

/-- Does this line make the transmitter ready in cycle `c`? -/
def StimLine.txReadyIn (c : Nat) : StimLine → Bool
  | .txReadyAlways => true
  | .txReadyAt cycles => cycles.contains c
  | .rxBytesAt _ _ => false
  | .rxTimeoutAt _ => false
  | .rxSilent => false
  | .errAt _ => false

/-- The byte this line delivers in cycle `c`: one per cycle from cycle `n` on. -/
def StimLine.byteIn (c : Nat) : StimLine → Option Byte
  | .rxBytesAt bytes n => if n ≤ c then bytes[c - n]? else none
  | .txReadyAlways => none
  | .txReadyAt _ => none
  | .rxTimeoutAt _ => none
  | .rxSilent => none
  | .errAt _ => none

/-- Does this line end the read in cycle `c`? -/
def StimLine.timeoutIn (c : Nat) : StimLine → Bool
  | .rxTimeoutAt n => n == c
  | .txReadyAlways => false
  | .txReadyAt _ => false
  | .rxBytesAt _ _ => false
  | .rxSilent => false
  | .errAt _ => false

/-- Does this line report a channel error in cycle `c`? -/
def StimLine.errorIn (c : Nat) : StimLine → Bool
  | .errAt n => n == c
  | .txReadyAlways => false
  | .txReadyAt _ => false
  | .rxBytesAt _ _ => false
  | .rxTimeoutAt _ => false
  | .rxSilent => false

/-- The inputs of cycle `c` under the lines (R15, R92). DESIGN CHOICE (log 12), where the notation is silent: the
operation is presented in cycle 0 and results are taken at once; where two lines deliver a byte in one cycle it is the
byte of the line written first; what any line makes ready, ends or reports stands. -/
def stimulusInputs (i : Instr) (lines : List StimLine) (c : Nat) : Inputs :=
  let byte := lines.findSome? (StimLine.byteIn c)
  { rst := false
    cmdValid := c == 0
    cmdOp := i.opcode
    cmdSpan := i.span
    txReady := lines.any (StimLine.txReadyIn c)
    rxValid := byte.isSome
    rxData := byte.getD 0x00
    rxTimeout := lines.any (StimLine.timeoutIn c)
    chErr := lines.any (StimLine.errorIn c)
    rspReady := true }

/-- The script of the first `n` cycles of an operation under its stimulus lines. -/
def stimulusScript (i : Instr) (lines : List StimLine) (n : Nat) : List Inputs :=
  (List.range n).map (stimulusInputs i lines)

/-- A result line `=> <STATUS> co2=<n> temp=<n> tt=<n> ss=<n> uhul=<n> attempts=<n>`. -/
structure ResultLine where
  status : Status
  co2 : Nat
  temp : Int
  tt : Nat
  ss : Nat
  uhul : Nat
  attempts : Nat
deriving DecidableEq, Repr

/-- The result line the result registers show; the temperature is read as signed (R162). -/
def State.resultLine (s : State) : ResultLine :=
  { status := s.resStatus, co2 := s.resCo2.toNat, temp := s.resTemp.toInt, tt := s.resTt.toNat
    ss := s.resSs.toNat, uhul := s.resUhul.toNat, attempts := s.resAtt.toNat }

end Sys2Proof.Machine
end

