-- ==== Sys2Proof/Tests/Slice0.lean ====
section
/-! SUPPORT. The model's own tests, with expected values from the spec's tables and vectors, and the witnesses that
the statements' hypotheses can be met. -/

namespace Sys2Proof.Tests

open Sys2Proof.Machine

/-- Two attempts, three backoff cycles. -/
def params23 : Params := { maxAttempts := 2, backoffCycles := 3 }

/-- A machine at position `st` with operation `op` latched, in attempt 1, whose next inputs are `inp`. -/
def stateAt (st : Fsm) (op : BitVec 3) (span : Half) (inp : Inputs) : State :=
  { State.reset with st := st, opR := op, spanR := span, att := 1, params := params23, script := [inp] }

def quiet : Inputs := Inputs.quiet
def ready : Inputs := { quiet with txReady := true }
def error : Inputs := { quiet with chErr := true }
def resets : Inputs := { quiet with rst := true }
def timeout : Inputs := { quiet with rxTimeout := true }
def take : Inputs := { quiet with rspReady := true }
def byte (b : Byte) : Inputs := { quiet with rxValid := true, rxData := b }
def offer (op : BitVec 3) (span : Half) : Inputs := { quiet with cmdValid := true, cmdOp := op, cmdSpan := span }

/-- The state an outcome gives, if it is a next state. -/
def nextOf : Host.Outcome State Fault Refusal → Option State
  | .next s => some s
  | .fault _ => none
  | .refused _ => none

/-- The response of E4. -/
def goodResponse : Frame := #v[0xFF, 0x86, 0x03, 0x20, 0x1E, 0x00, 0x00, 0x00, 0x39]

-- WellFormed: ill-formed terms are refused (R92, R7).

theorem test_span_65536_refused : (AsmOp.calSpan 65536).wellFormed = false ∧ (AsmOp.calSpan 65536).assemble = none := by decide
theorem test_op_8_refused : (AsmOp.op 8).wellFormed = false ∧ (AsmOp.op 8).assemble = none := by decide
theorem test_set_autocal_2_refused : (AsmOp.setAutocal 2).wellFormed = false ∧ (AsmOp.setAutocal 2).assemble = none := by decide
theorem test_zero_attempts_refused : Params.legal { maxAttempts := 0, backoffCycles := 3 } = false := by decide

-- Decode: words written out from R81, R82 (span in bits 18:3, log 5).

theorem test_decode_readCo2 : decodeWord 0b0001001000110100_000#19 = .readCo2 0x1234 := by decide
theorem test_decode_readAll : decodeWord 0b1111111111111111_001#19 = .readAll 0xFFFF := by decide
theorem test_decode_calZero : decodeWord 0b0000011111010000_010#19 = .calZero 0x07D0 := by decide
theorem test_decode_calSpan : decodeBytes [0b10000011, 0b00111110, 0b00000000] = .ok (.calSpan 2000) := by decide
theorem test_decode_autocalOn : decodeBytes [0b00000100, 0b00000000, 0b00000000] = .ok (.autocalOn 0) := by decide
theorem test_decode_autocalOff : decodeWord 0b1010101111001101_101#19 = .autocalOff 0xABCD := by decide
theorem test_decode_op6 : decodeWord 0b0000000000000000_110#19 = .op6 0 := by decide
theorem test_decode_op7 : decodeBytes [0b11111111, 0b11111111, 0b00000111] = .ok (.op7 0xFFFF) := by decide
theorem test_decode_table_rows : (List.range 8).map (decodeTableWord 3) =
    [some (.readCo2 0), some (.readAll 0), some (.calZero 0), some (.calSpan 0), some (.autocalOn 0),
     some (.autocalOff 0), some (.op6 0), some (.op7 0)] := by decide
theorem test_reject_bit_19 : decodeBytes [0x00, 0x00, 0x08] = .error .bitAboveCommandWord := by decide
theorem test_reject_two_bytes : decodeBytes [0x00, 0x00] = .error .tooFewBytes := by decide
theorem test_reject_four_bytes : decodeBytes [0x00, 0x00, 0x00, 0x00] = .error .tooManyBytes := by decide

-- Checksum (95_test_vectors.md 2.1), encoder (2.2), validator (2.3), decoder (2.4).

theorem test_checksum_vectors : checksum [] = 0x00 ∧ checksum [0x80, 0x80] = 0x00 ∧ checksum [0xFF] = 0x01 ∧
    checksum [0x01] = 0xFF ∧ checksum (List.replicate 7 0xFF) = 0x07 ∧
    checksum [0x86, 0x01, 0x90, 0x41, 0x00, 0x12, 0x34] = 0x62 ∧ checksum [0x01, 0x88, 0x03, 0xE8] = 0x8C := by decide

theorem test_encoder_vectors :
    cmdFrame 0b011 0x0100 = #v[0xFF, 0x01, 0x88, 0x01, 0x00, 0x00, 0x00, 0x00, 0x76] ∧
    cmdFrame 0b011 0xFF78 = #v[0xFF, 0x01, 0x88, 0xFF, 0x78, 0x00, 0x00, 0x00, 0x00] ∧
    cmdFrame 0b011 0x1388 = #v[0xFF, 0x01, 0x88, 0x13, 0x88, 0x00, 0x00, 0x00, 0xDC] ∧
    cmdFrame 0b101 0xABCD = #v[0xFF, 0x01, 0x79, 0x00, 0x00, 0x00, 0x00, 0x00, 0x86] := by decide

theorem test_validator_vectors :
    respValid 9 #v[0xFF, 0x86, 0x7A, 0x00, 0x00, 0x00, 0x00, 0x00, 0x00] = true ∧
    respValid 9 #v[0xFE, 0x86, 0x03, 0x20, 0x1E, 0x00, 0x00, 0x00, 0x39] = false ∧
    respValid 9 #v[0xFF, 0x87, 0x03, 0x20, 0x1E, 0x00, 0x00, 0x00, 0x38] = false ∧
    respValid 9 #v[0xFF, 0x86, 0x03, 0x20, 0x1E, 0x00, 0x00, 0x00, 0x3A] = false ∧
    respValid 8 goodResponse = false := by decide

theorem test_decoder_vectors :
    decodeFields 0b001 #v[0xFF, 0x86, 0x13, 0x88, 0x3C, 0x05, 0xFF, 0xFF, 0xA0] =
      { co2 := 5000, temp := 0x014, tt := 60, ss := 5, uhul := 65535 } ∧
    decodeFields 0b001 #v[0xFF, 0x86, 0x00, 0x00, 0x27, 0x00, 0x00, 0x00, 0x53] =
      { co2 := 0, temp := 0x1FF, tt := 39, ss := 0, uhul := 0 } ∧
    (decodeFields 0b001 #v[0xFF, 0x86, 0xFF, 0xFF, 0x00, 0x00, 0x00, 0x00, 0x7C]).temp = 0x1D8 ∧
    decodeFields 0b000 #v[0xFF, 0x86, 0x01, 0x90, 0x41, 0x00, 0x12, 0x34, 0x62] =
      { co2 := 400, temp := 0, tt := 0, ss := 0, uhul := 0 } := by decide

-- One step of each operation (E4, P1, P3, P4, S7 to S17 of 95_test_vectors.md; R186).

/-- A machine in CHK that captured the response of E4. -/
def checking (op : BitVec 3) (inp : Inputs) : State := { stateAt .chk op 0 inp with rxCnt := 9, rxbuf := goodResponse }

theorem test_readCo2_accepted : (nextOf (step (stateAt .idle 5 7 (offer 0b000 0x1234)))).map
    (fun t => (t.st, t.opR, t.spanR, t.att, t.outputs.txData)) = some (.tx, 0, 0x1234, 1, 0xFF) := by decide
theorem test_readCo2_result : (nextOf (step (checking 0b000 quiet))).map State.resultLine =
    some { status := .ok, co2 := 800, temp := 0, tt := 0, ss := 0, uhul := 0, attempts := 1 } := by decide
theorem test_readAll_result : (nextOf (step (checking 0b001 quiet))).map State.resultLine =
    some { status := .ok, co2 := 800, temp := -10, tt := 30, ss := 0, uhul := 0, attempts := 1 } := by decide
theorem test_readAll_channel_error_in_chk : (nextOf (step (checking 0b001 error))).map State.resultLine =
    some { status := .chanErr, co2 := 0, temp := 0, tt := 0, ss := 0, uhul := 0, attempts := 1 } := by decide
theorem test_calZero_ninth_byte : (nextOf (step { stateAt .tx 0b010 0 ready with txIdx := 8 })).map
    (fun t => (t.st, t.resStatus, t.resAtt, t.sent)) = some (.done, .sent, 1, [0x78]) := by decide
theorem test_calSpan_high_byte : (nextOf (step { stateAt .tx 0b011 2000 ready with txIdx := 3 })).map
    (fun t => (t.txIdx, t.sent, t.outputs.txData)) = some (4, [0x07], 0xD0) := by decide
theorem test_calSpan_ninth_byte : (nextOf (step { stateAt .tx 0b011 2000 ready with txIdx := 8 })).map
    (fun t => (t.st, t.resStatus, t.sent)) = some (.done, .sent, [0xA0]) := by decide
theorem test_autocalOn_fourth_byte : (nextOf (step { stateAt .tx 0b100 0 ready with txIdx := 3 })).map
    (fun t => (t.st, t.txIdx, t.sent)) = some (.tx, 4, [0xA0]) := by decide
theorem test_autocalOff_error_at_ninth_byte :
    (nextOf (step { stateAt .tx 0b101 0 { ready with chErr := true } with txIdx := 8 })).map
    (fun t => (t.st, t.resStatus, t.resAtt, t.sent)) = some (.done, .chanErr, 1, []) := by decide
theorem test_op6_keeps_the_latched_operation : (nextOf (step (stateAt .idle 3 2000 (offer 0b110 9)))).map
    (fun t => (t.st, t.resStatus, t.resAtt, t.opR, t.spanR, t.att)) =
    some (.done, .illegalOp, 0, 3, 2000, 1) := by decide
theorem test_op7_illegal : (nextOf (step (stateAt .idle 0 0 (offer 0b111 0xFFFF)))).map
    (fun t => (t.resultLine, t.sent)) =
    some ({ status := .illegalOp, co2 := 0, temp := 0, tt := 0, ss := 0, uhul := 0, attempts := 0 }, []) := by decide

-- The other positions.

theorem test_ninth_byte_closes_the_window : (nextOf (step { stateAt .rx 0 0 (byte 0x39) with rxCnt := 8 })).map
    (fun t => (t.st, t.rxCnt, t.rxbuf[8])) = some (.chk, 9, 0x39) := by decide
theorem test_byte_with_the_timeout_is_kept :
    (nextOf (step { stateAt .rx 0 0 { byte 0x20 with rxTimeout := true } with rxCnt := 3 })).map
    (fun t => (t.st, t.rxCnt, t.rxbuf[3])) = some (.chk, 4, 0x20) := by decide
theorem test_short_read_backs_off : (nextOf (step (stateAt .chk 1 0 quiet))).map (fun t => (t.st, t.boCnt)) =
    some (.backoff, 2) := by decide
theorem test_last_backoff_cycle_retries : (nextOf (step (stateAt .backoff 1 0 quiet))).map
    (fun t => (t.st, t.att, t.txIdx)) = some (.tx, 2, 0) := by decide
theorem test_exhausted_is_absent : (nextOf (step { stateAt .backoff 1 0 quiet with att := 2 })).map
    (fun t => (t.st, t.resStatus, t.resAtt)) = some (.done, .absent, 2) := by decide
theorem test_command_ignored_in_done : (nextOf (step (stateAt .done 2 0 { offer 0b101 0 with rspReady := true }))).map
    (fun t => (t.st, t.opR)) = some (.idle, 2) := by decide
theorem test_reset_beats_error : (nextOf (step { stateAt .tx 3 2000 { error with rst := true } with txIdx := 4 })).map
    (fun t => (t.st, t.spanR, t.txIdx, t.resStatus)) = some (.idle, 0, 0, .none) := by decide
theorem test_table_word_runs_first : (nextOf (step (State.reset.withFetchWord 3 0b011))).map
    (fun t => (t.st, t.opR, t.spanR)) = some (.tx, 3, 0) := by decide

-- Parameters and notation (R8, R92; P1).

theorem test_backoff_of_a_tie : isBackoffFor 1000000 100000 = true ∧ isBackoffFor 9600 961 = false ∧
    isBackoffFor 15 1 = true ∧ isBackoffFor 15 2 = true := by decide
theorem test_stimulus_lines :
    let inp := stimulusInputs (.readCo2 0) [.txReadyAlways, .rxBytesAt goodResponse.toList 10, .errAt 12]
    ((inp 0).cmdValid, (inp 9).rxValid, (inp 11).rxData, (inp 12).chErr, (inp 18).rxData, (inp 19).rxValid) =
      (true, false, 0x86, true, 0x39, false) := by decide

-- Witnesses: the hypotheses of each statement can be met, each clause at the edge of its range.

theorem witness_ChecksumLaws : byteSum [0xFF] % 256 ≠ 0 ∧ byteSum [0x80, 0x80] % 256 = 0 := by decide
theorem witness_ChecksumIgnoresOrderAndZeroPadding : ([0x01, 0x86] : List Byte).Perm [0x86, 0x01] := by decide
theorem witness_SentFramesCarryCodeAndChecksum : (0b000 : BitVec 3) < 6 ∧ (0b101 : BitVec 3) < 6 := by decide
theorem witness_ResponseValidExactlyOnFourConditions : respValid 9 goodResponse = true := by decide
theorem witness_BuiltResponseRoundTrips : ∃ f : Frame, f = #v[0xFF, 0x86, hiByte 800, loByte 800, 30, 0, hiByte 0,
    loByte 0, checksum [0x86, hiByte 800, loByte 800, 30, 0, hiByte 0, loByte 0]] := ⟨_, rfl⟩
theorem witness_DecodeEncodeAgree : (Instr.op7 0xFFFF).wellFormed = true ∧
    decodeBytes [0xFF, 0xFF, 0x07] = .ok (.op7 0xFFFF) := by decide
theorem witness_NotationStandsForOperations : 65535 ≤ 65535 ∧ 65535 < 65536 ∧ 7 ≤ 7 ∧ 7 < 8 ∧ 1 < 2 ∧
    (AsmOp.setAutocal 2).assemble = none := by decide
theorem witness_StepRunsCurrentOperation :
    (let s := stateAt .idle 0 0 (offer 3 2000); s.inputs.rst = false ∧ s.st = .idle ∧ s.inputs.cmdValid = true) ∧
    (let s := stateAt .tx 0 0 quiet; s.inputs.rst = false ∧ s.st.busy = true) ∧
    (let s := stateAt .backoff 0 0 quiet; s.inputs.rst = false ∧ s.st.busy = true) ∧
    (let s := stateAt .idle 0 0 quiet; s.inputs.rst = false ∧ s.st = .idle ∧ s.inputs.cmdValid = false) ∧
    (let s := stateAt .done 0 0 quiet; s.inputs.rst = false ∧ s.st = .done) ∧
    (stateAt .rx 0 0 resets).inputs.rst = true := by decide
theorem witness_PlacedWordIsRunNext : decodeTableWord 3 7 = some (.op7 0) ∧
    decodeTableWord 24 0x7FFFF = some (.op7 0xFFFF) := by decide
theorem witness_ResetGivesEveryRegisterItsValue : (stateAt .backoff 1 0 resets).inputs.rst = true := by decide
theorem witness_ChannelErrorEndsRunningOperation :
    (let s := stateAt .tx 3 1 error; s.inputs.rst = false ∧ s.st.busy = true ∧ s.inputs.chErr = true) ∧
    (stateAt .idle 3 1 quiet).st = .idle ∧ (stateAt .done 3 1 quiet).st = .done := by decide
theorem witness_EveryOperationReportsChannelError :
    let s := stateAt .chk 0 1 error; s.st.busy = true ∧ s.inputs.chErr = true := by decide
theorem witness_AcceptanceLatchesOperation : (Instr.readCo2 1).opcode < 6 ∧ (Instr.autocalOff 1).opcode < 6 ∧
    (let s := stateAt .idle 0 0 (offer 5 9);
      s.inputs.rst = false ∧ s.st = .idle ∧ s.inputs.cmdValid = true ∧ s.inputs.cmdOp < 6) ∧
    (let s := stateAt .idle 0 0 quiet; s.inputs.rst = false ∧ s.st = .idle ∧ s.inputs.cmdValid = false) := by decide
theorem witness_ReservedCodeCompletesIllegal : (stateAt .idle 0 0 quiet).st = .idle ∧
    (let s := stateAt .idle 0 0 (offer 6 9);
      s.inputs.rst = false ∧ s.st = .idle ∧ s.inputs.cmdValid = true ∧ s.inputs.cmdOp = 6) ∧
    (let s := stateAt .idle 0 0 (offer 7 9);
      s.inputs.rst = false ∧ s.st = .idle ∧ s.inputs.cmdValid = true ∧ s.inputs.cmdOp = 7) := by decide
theorem witness_TxOffersEachByteUntilTaken :
    (let s := stateAt .tx 0 0 quiet; s.inputs.rst = false ∧ s.inputs.chErr = false ∧ s.st = .tx ∧ s.inputs.txReady = false) ∧
    (let s := { stateAt .tx 0 0 ready with txIdx := 7 };
      s.inputs.rst = false ∧ s.inputs.chErr = false ∧ s.st = .tx ∧ s.inputs.txReady = true ∧ s.txIdx < 8) := by decide
theorem witness_EveryOperationSendsItsFrameByte :
    let s := { stateAt .tx 0 0 ready with txIdx := 7 }
    7 < 8 ∧ s.st = .tx ∧ s.inputs.chErr = false ∧ s.inputs.txReady = true ∧ s.txIdx = BitVec.ofNat 4 7 := by decide
theorem witness_NinthTransferEndsFrame :
    (let s := { stateAt .tx 1 0 ready with txIdx := 8 };
      s.inputs.rst = false ∧ s.inputs.chErr = false ∧ s.st = .tx ∧ s.inputs.txReady = true ∧ s.txIdx = 8 ∧ isRead s.opR = true) ∧
    isRead (stateAt .tx 2 0 ready).opR = false := by decide
theorem witness_WriteOnlyOperationsCompleteSent_ReadOperationsOpenWindow :
    let s := { stateAt .tx 2 0 ready with txIdx := 8 }
    s.st = .tx ∧ s.inputs.chErr = false ∧ s.inputs.txReady = true ∧ s.txIdx = 8 := by decide
theorem witness_RxCapturesThenCloses :
    (let s := stateAt .rx 0 0 quiet;
      s.inputs.rst = false ∧ s.inputs.chErr = false ∧ s.st = .rx ∧ s.rxCnt ≤ 8 ∧ s.inputs.rxValid = false ∧ s.inputs.rxTimeout = false) ∧
    (let s := { stateAt .rx 0 0 (byte 0x39) with rxCnt := 8 };
      s.inputs.rst = false ∧ s.inputs.chErr = false ∧ s.st = .rx ∧ s.rxCnt ≤ 8 ∧ s.inputs.rxValid = true) ∧
    (stateAt .rx 0 0 timeout).inputs.rxTimeout = true := by decide
theorem witness_ReadCo2_ReadAll_ValidResponseFinishesOk :
    let s := checking 1 quiet
    s.inputs.rst = false ∧ s.st = .chk ∧ s.inputs.chErr = false ∧ respValid s.rxCnt s.rxbuf = true := by decide
theorem witness_InvalidResponseFailsAttempt :
    (let s := stateAt .chk 1 0 quiet;
      s.inputs.rst = false ∧ s.inputs.chErr = false ∧ s.st = .chk ∧ respValid s.rxCnt s.rxbuf = false ∧
      s.params.backoffCycles ≠ 0) ∧
    { stateAt .chk 1 0 quiet with params := noRetry }.params.backoffCycles = 0 := by decide
theorem witness_BackoffCountsDown :
    (let s := stateAt .backoff 1 0 quiet; s.inputs.rst = false ∧ s.inputs.chErr = false ∧ s.st = .backoff ∧ s.boCnt = 0) ∧
    { stateAt .backoff 1 0 quiet with boCnt := 1 }.boCnt ≠ 0 := by decide
theorem witness_RetryOrAbsentAfterBackoff :
    { stateAt .backoff 1 0 quiet with att := 2 }.params.maxAttempts ≤ { stateAt .backoff 1 0 quiet with att := 2 }.att ∧
    (stateAt .backoff 1 0 quiet).att < (stateAt .backoff 1 0 quiet).params.maxAttempts := by decide
theorem witness_BackoffLastsExactlyBackoffCycles :
    let s := { stateAt .chk 1 0 quiet with script := List.replicate 4 quiet }
    s.st = .chk ∧ respValid s.rxCnt s.rxbuf = false ∧ s.params.backoffCycles.toNat + 1 ≤ s.script.length ∧
    (∀ inp ∈ s.script.take (s.params.backoffCycles.toNat + 1), calm inp) ∧
    1 ≤ 3 ∧ 3 ≤ s.params.backoffCycles.toNat := by decide
theorem witness_ResultIsHeldUntilTaken :
    (let s := stateAt .done 1 0 quiet; s.inputs.rst = false ∧ s.st = .done ∧ s.inputs.rspReady = false) ∧
    (stateAt .done 1 0 take).inputs.rspReady = true := by decide
theorem witness_UnreachableCodeGoesToIdle :
    (let s := stateAt .code6 1 0 quiet; s.inputs.rst = false ∧ s.st.code = 0b110) ∧
    (stateAt .code7 1 0 quiet).st.code = 0b111 := by decide
theorem witness_ResultRegistersWrittenOnlyByFinish : ∃ t, step (stateAt .rx 1 0 quiet) = .next t ∧
    (stateAt .rx 1 0 quiet).inputs.rst = false ∧ ¬ ((stateAt .rx 1 0 quiet).st ≠ .done ∧ t.st = .done) :=
  ⟨(stateAt .rx 1 0 quiet).tick, rfl, rfl, by decide⟩
theorem witness_BufferWrittenOnlyByCapture : ∃ t, step { stateAt .rx 1 0 (byte 0x39) with rxCnt := 8 } = .next t ∧
    (stateAt .rx 1 0 (byte 0x39)).inputs.rst = false ∧ t.rxbuf[8] ≠ (stateAt .rx 1 0 (byte 0x39)).rxbuf[8] :=
  ⟨_, rfl, rfl, by decide⟩
theorem witness_NoFalsePositiveDecode : ∃ t, step (checking 0 quiet) = .next t ∧
    (checking 0 quiet).st ≠ .done ∧ t.st = .done ∧ t.resStatus = .ok := ⟨_, rfl, by decide, rfl, rfl⟩
theorem witness_UnreadInputsHaveNoEffect : agreeOnRead .tx ready { ready with rxValid := true, rxData := 0x55 } :=
  ⟨rfl, rfl, rfl⟩
theorem witness_NoRetryConfigurationCompletesAtOnce :
    let s := { stateAt .chk 1 0 quiet with params := noRetry }
    s.params = noRetry ∧ s.inputs.rst = false ∧ s.inputs.chErr = false ∧ s.st = .chk ∧ 1 ≤ s.att ∧
    respValid s.rxCnt s.rxbuf = false := by decide
theorem witness_WaitsNeverEndByThemselves :
    let wait (st : Fsm) (inps : List Inputs) : State := { stateAt st 1 0 quiet with script := inps }
    (∀ st : Fsm, 2 ≤ (wait st [quiet, quiet]).script.length ∧ (wait st [quiet, quiet]).st = st) ∧
    (∀ inp ∈ [quiet, quiet], inp.rst = false ∧ inp.cmdValid = false ∧ inp.rspReady = false ∧ inp.chErr = false ∧
      inp.txReady = false) ∧
    (wait .rx [byte 1, quiet]).rxCnt.toNat + ([byte 1, quiet].take 2).countP (·.rxValid) ≤ 8 ∧
    (∀ inp ∈ [byte 1, quiet], inp.rst = false ∧ inp.chErr = false ∧ inp.rxTimeout = false) :=
  ⟨fun _ => ⟨Nat.le_refl 2, rfl⟩, by decide, by decide, by decide⟩

/-- A state of a running read that meets both invariants, and its next state. -/
theorem witness_StepKeepsControlInvariant_StepKeepsResultInvariant :
    ∃ t, ControlInv (stateAt .tx 1 0 ready) ∧ ResultInv (stateAt .tx 1 0 ready) ∧ step (stateAt .tx 1 0 ready) = .next t :=
  ⟨_, by constructor <;> decide, by constructor <;> decide, rfl⟩
theorem witness_OperationsAreIndependentOfThePast :
    let s1 := stateAt .idle 0 0 (offer 3 2000)
    let s2 := { checking 5 (offer 3 2000) with st := .idle, resStatus := .ok, resCo2 := 800 }
    s1.st = .idle ∧ s2.st = .idle ∧ s1.params = s2.params ∧ s1.script = s2.script ∧ s1.cycle = s2.cycle ∧ s1 ≠ s2 := by
  decide

theorem witness_AttemptAccounting_illegalOp : ∃ s, (stateAt .idle 0 0 (offer 6 0)).params.legal = true ∧
    InOperation (stateAt .idle 0 0 (offer 6 0)) s ∧ s.st = .done ∧ s.resStatus = .illegalOp :=
  ⟨_, rfl, .accepted _ rfl rfl rfl rfl, rfl, rfl⟩
theorem witness_AttemptAccounting_chanErr :
    let s0 := { stateAt .idle 0 0 quiet with script := [offer 0 0, error] }
    ∃ s, s0.params.legal = true ∧ InOperation s0 s ∧ s.st = .done ∧ s.resStatus = .chanErr :=
  ⟨_, rfl, .cycle _ _ (.accepted _ rfl rfl rfl rfl) rfl rfl rfl, rfl, rfl⟩

/-- Nine transfers without a stall. -/
def nineTransfers : List Inputs := List.replicate 8 ready ++ [ready]

theorem nineTransfers_transfersFrame : transfersFrame nineTransfers :=
  ⟨by decide, _, _, rfl, by decide, rfl⟩

theorem timeout_closesWindow : closesWindow [timeout] [] :=
  ⟨by decide, rfl, [], timeout, rfl, nofun, by decide, .inr rfl⟩

/-- The window of E4: nine bytes, one per cycle. -/
def goodWindow : List Inputs := goodResponse.toList.map byte

theorem goodWindow_closesWindow : closesWindow goodWindow goodResponse.toList :=
  ⟨by decide, by decide, (goodResponse.toList.take 8).map byte, byte 0x39, by decide, by decide, by decide, .inl (by decide)⟩

/-- A silent sensor's failed attempt, with three backoff cycles. -/
def silentAttempt : List Inputs := nineTransfers ++ [timeout] ++ [quiet] ++ List.replicate 3 quiet

theorem silentAttempt_failedAttempt : failedAttempt 3 silentAttempt :=
  ⟨nineTransfers, [timeout], [], quiet, List.replicate 3 quiet, rfl, nineTransfers_transfersFrame,
    timeout_closesWindow, rfl, by decide, rfl, by decide⟩

theorem witness_WriteOnlyOperationRuns :
    let i := Instr.calSpan 2000
    let s := { stateAt .idle 0 0 quiet with script := offer 3 2000 :: nineTransfers ++ [] }
    2 ≤ i.opcode ∧ i.opcode ≤ 5 ∧ s.st = .idle ∧ presents i (offer 3 2000) ∧ transfersFrame nineTransfers ∧
    s.script = offer 3 2000 :: nineTransfers ++ [] :=
  ⟨by decide, by decide, rfl, by decide, nineTransfers_transfersFrame, rfl⟩

theorem witness_ReadOperationSucceedsAtAttempt :
    let i := Instr.readAll 0
    let s := { stateAt .idle 0 0 quiet with
      script := offer 1 0 :: [silentAttempt].flatten ++ nineTransfers ++ goodWindow ++ [quiet] ++ [] }
    isRead i.opcode = true ∧ s.params.legal = true ∧ s.st = .idle ∧ presents i (offer 1 0) ∧
    [silentAttempt].length < s.params.maxAttempts.toNat ∧
    (∀ a ∈ [silentAttempt], failedAttempt s.params.backoffCycles.toNat a) ∧
    transfersFrame nineTransfers ∧ closesWindow goodWindow goodResponse.toList ∧
    respValid 9 goodResponse = true ∧ calm quiet :=
  ⟨rfl, rfl, rfl, by decide, by decide, fun _ h => by simp at h; exact h ▸ silentAttempt_failedAttempt, nineTransfers_transfersFrame,
    goodWindow_closesWindow, by decide, by decide⟩

theorem witness_RetryBound :
    let i := Instr.readCo2 0
    let s := { stateAt .idle 0 0 quiet with script := offer 0 0 :: [silentAttempt, silentAttempt].flatten ++ [] }
    isRead i.opcode = true ∧ s.params.legal = true ∧ s.st = .idle ∧ presents i (offer 0 0) ∧
    [silentAttempt, silentAttempt].length = s.params.maxAttempts.toNat ∧
    (∀ a ∈ [silentAttempt, silentAttempt], failedAttempt s.params.backoffCycles.toNat a) :=
  ⟨rfl, rfl, rfl, by decide, rfl, fun _ h => by simp at h; exact h ▸ silentAttempt_failedAttempt⟩

/-- An operation accepted, its frame sent. -/
def offered (op : BitVec 3) (rest : List Inputs) : State :=
  { stateAt .idle 0 0 quiet with params := noRetry, script := offer op 0 :: nineTransfers ++ rest }

theorem witness_AttemptAccounting_sent : ∃ s, (offered 2 []).params.legal = true ∧
    InOperation (offered 2 []) s ∧ s.st = .done ∧ s.resStatus = .sent :=
  ⟨_, rfl, .passes 9 _ _ (.accepted _ rfl rfl rfl rfl) rfl
    (tx_phase (txs := nineTransfers) (rest := []) rfl rfl rfl nineTransfers_transfersFrame) (by decide) (by decide),
    rfl, rfl⟩

theorem witness_AttemptAccounting_absent : ∃ s, (offered 0 [timeout, quiet]).params.legal = true ∧
    InOperation (offered 0 [timeout, quiet]) s ∧ s.st = .done ∧ s.resStatus = .absent :=
  ⟨_, rfl, .cycle _ _ (.passes 10 _ _ (.accepted _ rfl rfl rfl rfl) rfl
    (attempt_phase (txs := nineTransfers) (rxs := [timeout]) (rest := [quiet]) rfl rfl rfl rfl
      nineTransfers_transfersFrame timeout_closesWindow).2 (by decide) (by decide)) rfl rfl rfl, rfl, rfl⟩

theorem witness_AttemptAccounting_ok : ∃ s, (offered 1 (goodWindow ++ [quiet])).params.legal = true ∧
    InOperation (offered 1 (goodWindow ++ [quiet])) s ∧ s.st = .done ∧ s.resStatus = .ok :=
  ⟨_, rfl, .cycle _ _ (.passes 18 _ _ (.accepted _ rfl rfl rfl rfl) rfl
    (attempt_phase (txs := nineTransfers) (rxs := goodWindow) (rest := [quiet]) rfl rfl rfl rfl
      nineTransfers_transfersFrame goodWindow_closesWindow).2 (by decide) (by decide)) rfl rfl rfl, rfl, rfl⟩

end Sys2Proof.Tests
end

namespace Sys2Proof.Machine

/-! Rules for a completed operation and for a cycle in CHK, cited by the obligations about failed attempts. -/

@[simp] theorem tick_fields (s : State) : s.tick.fields = s.fields := rfl

@[simp] theorem finish_fields (a : Status) (f : Fields) (n : BitVec 3) (s : State) :
    (finish a f n s).fields = f := rfl

/-- Without a reset, a busy state runs one cycle of the latched operation (R32, R200). -/
theorem step_of_busy {s : State} (hr : s.inputs.rst = false) (hb : s.st.busy = true) :
    step s = .next (opCycle (startOf (decodeCw s.opR s.spanR)) (isRead s.opR) (cmdFrame s.opR s.spanR)
      (decodeFields s.opR) s).tick := by
  have hidle : s.st ≠ .idle := fun h => by simp [h, Fsm.busy] at hb
  have hcur : s.current = some (decodeCw s.opR s.spanR) := by simp [State.current, hidle, hb]
  simp only [step, hr, Bool.false_eq_true, if_false, hcur, exec_eq_opCycle, opcode_decodeCw, span_decodeCw, ticked]

/-- Without a reset or a channel error, CHK runs its arm with the latched operation's decoder (R210, R211). -/
theorem step_chk_calm {s : State} (hr : s.inputs.rst = false) (hc : s.inputs.chErr = false) (hs : s.st = .chk) :
    step s = .next (chkArm (decodeFields s.opR) s).tick := by
  rw [step_of_busy hr (by rw [hs]; rfl), opCycle_chk _ _ _ _ hs, unlessChanErr_calm hc]

theorem chkArm_invalid (fields : Frame → Fields) {s : State} (hv : respValid s.rxCnt s.rxbuf = false) :
    chkArm fields s = fail s := by
  simp [chkArm, hv]

theorem fail_noBackoff {s : State} (hb : s.params.backoffCycles = 0) : fail s = afterBackoff s := by
  simp only [fail, if_pos hb]

/-- With one attempt and no backoff, a failed attempt of number 1 or more is the last (R11, R213). -/
theorem fail_noRetry {s : State} (hp : s.params = noRetry) (ha : 1 ≤ s.att) :
    fail s = finish .absent zeroFields s.att s := by
  rw [fail_noBackoff (by rw [hp]; rfl), afterBackoff_exhausted (by rw [hp]; exact ha)]

/-- Settles O47: the failed attempt is the last one, so CHK itself completes the read with ABSENT. -/
theorem noRetryConfigurationCompletesAtOnce : Obligations.NoRetryConfigurationCompletesAtOnce := by
  intro s hp hr hc hs ha hv
  have hstep : step s = .next (finish .absent zeroFields s.att s).tick := by
    rw [step_chk_calm hr hc hs, chkArm_invalid _ hv, fail_noRetry hp ha]
  exact ⟨_, hstep, by simp⟩

end Sys2Proof.Machine

namespace Sys2Proof.Machine

/-! What a step keeps and writes, register group by register group, from the cases of a step. -/

/-- The parameters, the coming inputs and the cycle count are no registers: before the edge is counted they stay
(logs 2 and 3). -/
theorem StepCase.env_kept {s u : State} (h : StepCase s u) :
    u.params = s.params ∧ u.script = s.script ∧ u.cycle = s.cycle := by
  cases h <;> exact ⟨rfl, rfl, rfl⟩

/-- The byte transferred at this edge, if there is one (R22, R203; log 4). -/
def State.transferred (s : State) : List Byte :=
  if s.st = .tx ∧ s.inputs.txReady = true ∧ calm s.inputs then [s.txData] else []

theorem transferred_of_transfer {s : State} (hs : s.st = .tx) (hx : s.inputs.txReady = true) (hc : calm s.inputs) :
    s.transferred = [frameByte (cmdFrame s.opR s.spanR) s.txIdx] := by
  rw [State.transferred, if_pos ⟨hs, hx, hc⟩, State.txData, if_pos hs]

theorem transferred_of_not {s : State} (h : ¬ (s.st = .tx ∧ s.inputs.txReady = true ∧ calm s.inputs)) :
    s.transferred = [] := if_neg h

/-- A step extends the record by the transferred byte: the three cases of a transfer record it, every other case
records nothing. -/
theorem StepCase.sent_eq {s u : State} (h : StepCase s u) : u.sent = s.sent ++ s.transferred := by
  cases h
  case txNext hr he hs hx _ => rw [transferred_of_transfer hs hx ⟨hr, he⟩]; rfl
  case txToWindow hr he hs hx _ _ => rw [transferred_of_transfer hs hx ⟨hr, he⟩]; rfl
  case txSent hr he hs hx _ _ => rw [transferred_of_transfer hs hx ⟨hr, he⟩]; rfl
  case recovered _ hs =>
    rw [transferred_of_not (by rcases hs with hs | hs <;> simp [hs])]
    exact (List.append_nil _).symm
  all_goals
    rw [transferred_of_not (by simp_all [calm])]
    exact (List.append_nil _).symm

/-- Settles O40: the environment's fields are kept or counted on, and the record grows by the transferred byte. -/
theorem transfersAreTheOfferedBytes : Obligations.TransfersAreTheOfferedBytes := by
  intro s
  obtain ⟨u, hu, e⟩ := step_next s
  obtain ⟨hp, hsc, hcy⟩ := hu.env_kept
  refine ⟨u.tick, e, hp, by rw [tick_script, hsc], by rw [tick_cycle, hcy], ?_⟩
  rw [tick_sent, hu.sent_eq]
  simp only [State.transferred, State.outputs, beq_iff_eq]
  split <;> simp

/-- Only an edge that enters DONE from another state, or a reset, writes the result registers (R39, R214). -/
theorem StepCase.enters_done_or_sameResult {s u : State} (h : StepCase s u) (hr : s.inputs.rst = false) :
    (s.st ≠ .done ∧ u.st = .done) ∨ sameResult s u := by
  cases h
  case reset h => simp [hr] at h
  case channelError _ hb _ => exact .inl ⟨fun hs => by simp [hs, Fsm.busy] at hb, rfl⟩
  case illegal _ hs _ _ => exact .inl ⟨by simp [hs], rfl⟩
  case txSent _ _ hs _ _ _ => exact .inl ⟨by simp [hs], rfl⟩
  case valid _ _ hs _ => exact .inl ⟨by simp [hs], rfl⟩
  case failedAbsent _ _ hs _ _ _ => exact .inl ⟨by simp [hs], rfl⟩
  case backoffAbsent _ _ hs _ _ => exact .inl ⟨by simp [hs], rfl⟩
  all_goals exact .inr ⟨rfl, rfl, rfl⟩

/-- Settles O43: a step that is no completion and no reset is one that keeps the result registers. -/
theorem resultRegistersWrittenOnlyByFinish : Obligations.ResultRegistersWrittenOnlyByFinish := by
  intro s t ht hr hd
  obtain ⟨u, hu, rfl⟩ := step_cases ht
  exact (hu.enters_done_or_sameResult hr).resolve_left hd

/-- The response buffer is kept, or it is the capture of a delivered byte in RX (R60, R208). -/
theorem StepCase.rxbuf_kept_or_captured {s u : State} (h : StepCase s u) (hr : s.inputs.rst = false) :
    u.rxbuf = s.rxbuf ∨ (s.st = .rx ∧ s.inputs.chErr = false ∧ s.inputs.rxValid = true ∧
      u.rxbuf = (capture s.inputs.rxData s).rxbuf) := by
  cases h
  case reset h => simp [hr] at h
  case rxCaptureClose _ he hs hv _ => exact .inr ⟨hs, he, hv, rfl⟩
  case rxCaptureStay _ he hs hv _ _ => exact .inr ⟨hs, he, hv, rfl⟩
  all_goals exact .inl rfl

/-- Settles O44: a changed entry is a captured one, and a capture changes the entry at `rx_cnt` alone. -/
theorem bufferWrittenOnlyByCapture : Obligations.BufferWrittenOnlyByCapture := by
  intro s t j hj ht hr hne
  obtain ⟨u, hu, rfl⟩ := step_cases ht
  rw [show u.tick.rxbuf[j] = u.rxbuf[j] from rfl] at hne ⊢
  rcases hu.rxbuf_kept_or_captured hr with hk | ⟨hs, he, hv, hk⟩
  · exact absurd (by rw [hk]) hne
  · simp only [hk] at hne ⊢
    have hidx : s.rxCnt.toNat = j := by
      by_contra h
      exact hne (capture_read_other _ s hj h)
    exact ⟨hs, he, hv, hidx, capture_read_same _ s hj hidx⟩

end Sys2Proof.Machine

namespace Sys2Proof.Machine

/-! The control invariant (R47), operation by operation: what each register write needs to keep it. -/

theorem legal_iff (p : Params) : p.legal = true ↔ p.maxAttempts ≠ 0 := by
  simp [Params.legal]

theorem one_le_maxAttempts {p : Params} (h : p.legal = true) : 1 ≤ p.maxAttempts := by
  have := (legal_iff p).mp h
  bv_omega

/-- A code that is not reserved is one of R82's six. -/
theorem lt_six_of_not_reserved {op : BitVec 3} (h : isReserved op = false) : op < 6 := by
  revert op
  decide

theorem controlInv_tick {s : State} (h : ControlInv s) : ControlInv s.tick := { h with }

theorem controlInv_transfer {s : State} (b : Byte) (h : ControlInv s) : ControlInv (transfer b s) := { h with }

theorem controlInv_resetRegisters {s : State} (hp : s.params.legal = true) : ControlInv (resetRegisters s) where
  legal := hp
  st_named := ⟨nofun, nofun⟩
  op_range := by simp
  tx_range := by simp
  in_tx := nofun
  in_tx_write := nofun
  in_read := nofun
  in_rx := nofun
  rx_range := by simp
  in_backoff := nofun
  bo_range := .inl rfl
  att_range := Nat.zero_le _
  res_att_range := Nat.zero_le _

theorem controlInv_finish {s : State} (a : Status) (f : Fields) {n : BitVec 3} (h : ControlInv s)
    (hn : n ≤ s.params.maxAttempts) : ControlInv (finish a f n s) :=
  { h with
    st_named := ⟨nofun, nofun⟩, in_tx := nofun, in_tx_write := nofun, in_read := nofun, in_rx := nofun
    in_backoff := nofun, res_att_range := hn }

theorem controlInv_takeResult {s : State} (h : ControlInv s) : ControlInv (takeResult s) :=
  { h with
    st_named := ⟨nofun, nofun⟩, in_tx := nofun, in_tx_write := nofun, in_read := nofun, in_rx := nofun
    in_backoff := nofun }

theorem controlInv_accept {s : State} {op : BitVec 3} (span : Half) (h : ControlInv s)
    (hop : isReserved op = false) : ControlInv (accept op span s) :=
  have hmax := one_le_maxAttempts h.legal
  { h with
    st_named := ⟨nofun, nofun⟩, op_range := lt_six_of_not_reserved hop, tx_range := by simp
    in_tx := fun _ => ⟨by simp, hmax⟩, in_tx_write := fun _ _ => rfl, in_read := nofun, in_rx := nofun
    in_backoff := nofun, att_range := hmax }

theorem controlInv_nextByte {s : State} (h : ControlInv s) (hi : s.txIdx < 8) : ControlInv (nextByte s) :=
  { h with tx_range := by rw [nextByte_txIdx]; bv_omega }

theorem controlInv_openWindow {s : State} (h : ControlInv s) (hs : s.st = .tx) (ho : isRead s.opR = true) :
    ControlInv (openWindow s) :=
  { h with
    st_named := ⟨nofun, nofun⟩, in_tx := nofun, in_tx_write := nofun, in_read := fun _ => ⟨ho, h.in_tx hs⟩
    in_rx := fun _ => by simp, rx_range := by simp, in_backoff := nofun }

theorem controlInv_capture {s : State} (b : Byte) (h : ControlInv s) (hs : s.st = .rx) (hn : s.rxCnt + 1 ≠ 9) :
    ControlInv (capture b s) :=
  have hcnt := h.in_rx hs
  have hnext : s.rxCnt + 1 ≤ 8 := by bv_omega
  { h with in_rx := fun _ => hnext, rx_range := by rw [capture_rxCnt]; bv_omega }

/-- The window may close with its ninth byte: in CHK the count may be 9. -/
theorem controlInv_closeWindow {s : State} {buf : Frame} {cnt : BitVec 4} (h : ControlInv s) (hs : s.st = .rx)
    (hc : cnt ≤ 9) : ControlInv (closeWindow { s with rxbuf := buf, rxCnt := cnt }) :=
  { h with
    st_named := ⟨nofun, nofun⟩, in_tx := nofun, in_tx_write := nofun, in_read := fun _ => h.in_read (.inl hs)
    in_rx := nofun, rx_range := hc, in_backoff := nofun }

theorem controlInv_startBackoff {s : State} (h : ControlInv s) (hs : s.st = .chk)
    (hb : s.params.backoffCycles ≠ 0) : ControlInv (startBackoff s) :=
  { h with
    st_named := ⟨nofun, nofun⟩, in_tx := nofun, in_tx_write := nofun
    in_read := fun _ => h.in_read (.inr (.inl hs)), in_rx := nofun
    in_backoff := fun _ => ⟨by rw [startBackoff_params]; bv_omega, BitVec.le_refl _⟩
    bo_range := .inr (by rw [startBackoff_boCnt, startBackoff_params]; bv_omega) }

theorem controlInv_countBackoff {s : State} (h : ControlInv s) (hs : s.st = .backoff) (hb : s.boCnt ≠ 0) :
    ControlInv (countBackoff s) :=
  have hin := h.in_backoff hs
  { h with
    in_backoff := fun _ => ⟨hin.1, by rw [countBackoff_boCnt, countBackoff_params]; bv_omega⟩
    bo_range := .inr (by rw [countBackoff_boCnt, countBackoff_params]; bv_omega) }

theorem controlInv_retry {s : State} (h : ControlInv s) (ho : isRead s.opR = true)
    (ha : ¬ s.params.maxAttempts ≤ s.att) : ControlInv (retry s) :=
  have hnext : s.att + 1 ≤ s.params.maxAttempts := by bv_omega
  have hpos : 1 ≤ s.att + 1 := by bv_omega
  { h with
    st_named := ⟨nofun, nofun⟩, tx_range := by simp, in_tx := fun _ => ⟨hpos, hnext⟩
    in_tx_write := fun _ hw => by simp [ho] at hw
    in_read := nofun, in_rx := nofun, in_backoff := nofun, att_range := hnext }

theorem controlInv_of_stepCase {s u : State} (h : ControlInv s) (c : StepCase s u) : ControlInv u := by
  cases c with
  | reset => exact controlInv_resetRegisters h.legal
  | channelError => exact controlInv_finish _ _ h h.att_range
  | idleWait => exact h
  | illegal => exact controlInv_finish _ _ h (Nat.zero_le _)
  | accepted _ _ _ hop => exact controlInv_accept _ h hop
  | txWait => exact h
  | txNext _ _ _ _ hi => exact controlInv_nextByte (controlInv_transfer _ h) hi
  | txToWindow _ _ hs _ _ ho => exact controlInv_openWindow (controlInv_transfer _ h) hs ho
  | txSent => exact controlInv_finish _ _ (controlInv_transfer _ h) h.att_range
  | rxCaptureClose _ _ hs =>
    have hcnt := h.in_rx hs
    exact controlInv_closeWindow h hs (by bv_omega)
  | rxCaptureStay _ _ hs _ hn _ => exact controlInv_capture _ h hs hn
  | rxClose _ _ hs => exact controlInv_closeWindow h hs h.rx_range
  | rxWait => exact h
  | valid => exact controlInv_finish _ _ h h.att_range
  | failedBackoff _ _ hs _ hb => exact controlInv_startBackoff h hs hb
  | failedAbsent => exact controlInv_finish _ _ h h.att_range
  | failedRetry _ _ hs _ _ ha => exact controlInv_retry h (h.in_read (.inr (.inl hs))).1 ha
  | backoffCount _ _ hs hb => exact controlInv_countBackoff h hs hb
  | backoffAbsent => exact controlInv_finish _ _ h h.att_range
  | backoffRetry _ _ hs _ ha => exact controlInv_retry h (h.in_read (.inr (.inr hs))).1 ha
  | taken => exact controlInv_takeResult h
  | held => exact h
  | recovered _ hs => exact (hs.elim h.st_named.1 h.st_named.2).elim

/-- Settles O49, by the cases of a step, one lemma per register operation. -/
theorem stepKeepsControlInvariant : Obligations.StepKeepsControlInvariant := by
  intro s t h ht
  obtain ⟨u, hu, rfl⟩ := step_cases ht
  exact controlInv_tick (controlInv_of_stepCase h hu)

end Sys2Proof.Machine

namespace Sys2Proof.Machine

/-! The result invariant (R47.7, R90): what each completion writes, and why no other step disturbs the result. -/

/-- The attempt counts a status is written with, over the callers of `finish` (R214). -/
def Status.allowsCount (p : Params) (n : BitVec 3) : Status → Prop
  | .none => n = 0
  | .ok => 1 ≤ n
  | .absent => n = p.maxAttempts
  | .sent => n = 1
  | .chanErr => 1 ≤ n
  | .illegalOp => n = 0

theorem resultInv_tick {s : State} (h : ResultInv s) : ResultInv s.tick := { h with }

/-- A completion without a measurement: the fields are zero and only the count has to fit the status. -/
theorem resultInv_finish_zero {s : State} {a : Status} {n : BitVec 3} (ha : a ≠ .ok)
    (hn : a.allowsCount s.params n) : ResultInv (finish a zeroFields n s) where
  fields_zero := fun _ => rfl
  ok_valid := fun h => absurd h ha
  ok_att := fun h => absurd h ha
  absent_att := by rintro ⟨⟩; exact hn
  sent_att := by rintro ⟨⟩; exact hn
  chan_att := by rintro ⟨⟩; exact hn
  illegal_att := by rintro ⟨⟩; exact hn
  none_att := by rintro ⟨⟩; exact hn

/-- A completion with a measurement: the result is the decoding of the buffer (R210). -/
theorem resultInv_finish_ok {s : State} (ho : isRead s.opR = true) (hv : respValid s.rxCnt s.rxbuf = true)
    (ha : 1 ≤ s.att) : ResultInv (finish .ok (decodeFields s.opR s.rxbuf) s.att s) where
  fields_zero := fun h => absurd rfl h
  ok_valid := fun _ _ => ⟨ho, hv, rfl, rfl⟩
  ok_att := fun _ => ha
  absent_att := nofun
  sent_att := nofun
  chan_att := nofun
  illegal_att := nofun
  none_att := nofun

theorem resultInv_resetRegisters (s : State) : ResultInv (resetRegisters s) where
  fields_zero := fun _ => rfl
  ok_valid := nofun
  ok_att := nofun
  absent_att := nofun
  sent_att := nofun
  chan_att := nofun
  illegal_att := nofun
  none_att := fun _ => rfl

/-- While an operation runs, the result registers alone are held to the invariant: buffer, count and `op_r` may
change under an old OK result. -/
theorem resultInv_of_busy {s u : State} (h : ResultInv s) (hb : u.st.busy = true) (hp : u.params = s.params)
    (hr : sameResult s u) : ResultInv u := by
  obtain ⟨hst, hf, hn⟩ := hr
  have hbusy : ¬ (u.st = .idle ∨ u.st = .done) := by
    rintro (hs | hs) <;> simp [hs, Fsm.busy] at hb
  constructor <;> rw [hst]
  case fields_zero => rw [hf]; exact h.fields_zero
  case ok_valid => exact fun _ hs => absurd hs hbusy
  all_goals rw [hn]
  case ok_att => exact h.ok_att
  case absent_att => rw [hp]; exact h.absent_att
  case sent_att => exact h.sent_att
  case chan_att => exact h.chan_att
  case illegal_att => exact h.illegal_att
  case none_att => exact h.none_att

/-- Taking a result leaves it, and the response it decodes, in place (R215). -/
theorem resultInv_takeResult {s : State} (h : ResultInv s) (hs : s.st = .done) : ResultInv (takeResult s) :=
  { h with ok_valid := fun ha _ => h.ok_valid ha (.inr hs) }

theorem one_le_att_of_busy {s : State} (h : ControlInv s) (hb : s.st.busy = true) : 1 ≤ s.att := by
  cases hs : s.st with
  | tx => exact (h.in_tx hs).1
  | rx => exact (h.in_read (.inl hs)).2.1
  | chk => exact (h.in_read (.inr (.inl hs))).2.1
  | backoff => exact (h.in_read (.inr (.inr hs))).2.1
  | idle | done | code6 | code7 => simp [hs, Fsm.busy] at hb

theorem att_eq_maxAttempts {s : State} (h : ControlInv s) (ha : s.params.maxAttempts ≤ s.att) :
    s.att = s.params.maxAttempts :=
  BitVec.le_antisymm h.att_range ha

theorem resultInv_of_stepCase {s u : State} (hc : ControlInv s) (h : ResultInv s) (c : StepCase s u) :
    ResultInv u := by
  cases c with
  | reset => exact resultInv_resetRegisters s
  | channelError _ hb => exact resultInv_finish_zero nofun (one_le_att_of_busy hc hb)
  | idleWait => exact h
  | illegal => exact resultInv_finish_zero nofun rfl
  | accepted => exact resultInv_of_busy h rfl rfl ⟨rfl, rfl, rfl⟩
  | txWait => exact h
  | txNext _ _ hs => exact resultInv_of_busy h (by simp [hs, Fsm.busy]) rfl ⟨rfl, rfl, rfl⟩
  | txToWindow => exact resultInv_of_busy h rfl rfl ⟨rfl, rfl, rfl⟩
  | txSent _ _ hs _ _ ho => exact resultInv_finish_zero nofun (hc.in_tx_write hs ho)
  | rxCaptureClose => exact resultInv_of_busy h rfl rfl ⟨rfl, rfl, rfl⟩
  | rxCaptureStay _ _ hs => exact resultInv_of_busy h (by simp [hs, Fsm.busy]) rfl ⟨rfl, rfl, rfl⟩
  | rxClose => exact resultInv_of_busy h rfl rfl ⟨rfl, rfl, rfl⟩
  | rxWait => exact h
  | valid _ _ hs hv =>
    obtain ⟨ho, ha, -⟩ := hc.in_read (.inr (.inl hs))
    exact resultInv_finish_ok ho hv ha
  | failedBackoff => exact resultInv_of_busy h rfl rfl ⟨rfl, rfl, rfl⟩
  | failedAbsent _ _ _ _ _ ha => exact resultInv_finish_zero nofun (att_eq_maxAttempts hc ha)
  | failedRetry => exact resultInv_of_busy h rfl rfl ⟨rfl, rfl, rfl⟩
  | backoffCount _ _ hs => exact resultInv_of_busy h (by simp [hs, Fsm.busy]) rfl ⟨rfl, rfl, rfl⟩
  | backoffAbsent _ _ _ _ ha => exact resultInv_finish_zero nofun (att_eq_maxAttempts hc ha)
  | backoffRetry => exact resultInv_of_busy h rfl rfl ⟨rfl, rfl, rfl⟩
  | taken _ hs => exact resultInv_takeResult h hs
  | held => exact h
  | recovered _ hs => exact (hs.elim hc.st_named.1 hc.st_named.2).elim

/-- Settles O50, by the cases of a step: completions write an allowed result, and nothing else touches one. -/
theorem stepKeepsResultInvariant : Obligations.StepKeepsResultInvariant := by
  intro s t hc h ht
  obtain ⟨u, hu, rfl⟩ := step_cases ht
  exact resultInv_tick (resultInv_of_stepCase hc h hu)

/-- Settles O51: the reset state is what a reset makes of itself. -/
theorem resetMeetsInvariants : Obligations.ResetMeetsInvariants := by
  have hreset : resetRegisters State.reset = State.reset := rfl
  rw [Obligations.ResetMeetsInvariants, ← hreset]
  exact ⟨controlInv_resetRegisters rfl, resultInv_resetRegisters _⟩

/-- Settles O19: R46's table, entry by entry. -/
theorem resetStateValues : Obligations.ResetStateValues := by
  have hbuf : ∀ (j : Nat) (h : j < 9), State.reset.rxbuf[j] = 0x00 := fun j h => by
    simp only [State.reset, Vector.getElem_replicate]
  exact ⟨rfl, rfl, rfl, rfl, rfl, hbuf, rfl, rfl, rfl, rfl, rfl, rfl⟩

/-- The state of a code of `st` (R31, R222). -/
def Fsm.ofCode (c : BitVec 3) : Fsm :=
  match c with
  | 0b000 => .idle
  | 0b001 => .tx
  | 0b010 => .rx
  | 0b011 => .chk
  | 0b100 => .backoff
  | 0b101 => .done
  | 0b110 => .code6
  | _ => .code7

theorem Fsm.ofCode_code (st : Fsm) : Fsm.ofCode st.code = st := by
  cases st <;> rfl

theorem Fsm.code_injective : Function.Injective Fsm.code := Function.LeftInverse.injective Fsm.ofCode_code

/-- Settles O42: the tables of R31 and R89; `st` is read back from its code. -/
theorem stateAndStatusCodes : Obligations.StateAndStatusCodes :=
  ⟨rfl, rfl, rfl, rfl, rfl, rfl, fun _ _ h => Fsm.code_injective h, rfl, rfl, rfl, rfl, rfl, rfl⟩

end Sys2Proof.Machine

namespace Sys2Proof.Machine

/-! Independence of earlier operations (R48): two machines that agree on the registers their position still reads
take the same course. Every register an operation reads, it has written first. -/

/-- R200 as one equation, position by position. -/
theorem step_eq_specArm (s : State) : step s = .next (specArm s).tick := by
  cases hr : s.inputs.rst
  case true => simp [step, specArm, hr]
  case false =>
    cases hs : s.st
    case idle =>
      cases hv : s.inputs.cmdValid
      · simp [step, specArm, State.current, betweenOps, hr, hs, hv, Fsm.busy]
      · cases hi : isReserved s.inputs.cmdOp <;>
          simp [step, specArm, State.current, hr, hs, hv, hi, Fsm.busy, exec_eq_opCycle, opCycle_idle _ _ _ _ hs,
            ticked, startOf, opcode_decodeCw, span_decodeCw]
    case done | code6 | code7 => simp [step, specArm, State.current, betweenOps, hr, hs, Fsm.busy]
    all_goals
      rw [step_of_busy hr (by rw [hs]; rfl)]
      cases he : s.inputs.chErr <;> simp [opCycle, unlessChanErr, specArm, hr, hs, he, Fsm.busy]

/-- A window of other than nine bytes is invalid whatever the buffer holds (R141). -/
theorem respValid_of_cnt_ne {cnt : BitVec 4} (hcnt : cnt ≠ 9) (buf : Frame) : respValid cnt buf = false := by
  simp only [respValid, beq_false_of_ne hcnt, Bool.false_and]

/-- The same parameters, coming inputs and cycle: what is no register of the framer. -/
structure SameEnv (s1 s2 : State) : Prop where
  params : s1.params = s2.params
  script : s1.script = s2.script
  cycle : s1.cycle = s2.cycle

/-- Agreement on every register that can still be read before it is written, position by position. -/
structure SameCourse (s1 s2 : State) : Prop extends SameEnv s1 s2 where
  st : s1.st = s2.st
  in_busy : s1.st.busy = true → s1.opR = s2.opR ∧ s1.spanR = s2.spanR ∧ s1.att = s2.att
  in_tx : s1.st = .tx → s1.txIdx = s2.txIdx
  in_window : s1.st = .rx ∨ s1.st = .chk → s1.rxCnt = s2.rxCnt ∧
    ∀ (j : Nat) (h : j < 9), j < s1.rxCnt.toNat → s1.rxbuf[j] = s2.rxbuf[j]
  in_backoff : s1.st = .backoff → s1.boCnt = s2.boCnt
  in_done : s1.st = .done → sameResult s2 s1

theorem sameEnv_inputs {s1 s2 : State} (h : SameEnv s1 s2) : s1.inputs = s2.inputs := by
  simp only [State.inputs, h.script, h.cycle]

section Course

variable {s1 s2 : State}

theorem sameCourse_tick (h : SameCourse s1 s2) : SameCourse s1.tick s2.tick :=
  { h with script := congrArg List.tail h.script, cycle := congrArg (· + 1) h.cycle }

theorem sameCourse_transfer (b : Byte) (h : SameCourse s1 s2) : SameCourse (transfer b s1) (transfer b s2) := { h with }

theorem sameCourse_of_idle (h : SameEnv s1 s2) (h1 : s1.st = .idle) (h2 : s2.st = .idle) : SameCourse s1 s2 :=
  { h with
    st := h1.trans h2.symm, in_busy := by simp [h1, Fsm.busy], in_tx := by simp [h1], in_window := by simp [h1]
    in_backoff := by simp [h1], in_done := by simp [h1] }

theorem sameCourse_takeResult (h : SameEnv s1 s2) : SameCourse (takeResult s1) (takeResult s2) :=
  sameCourse_of_idle { h with } rfl rfl

theorem sameCourse_resetRegisters (h : SameEnv s1 s2) : SameCourse (resetRegisters s1) (resetRegisters s2) :=
  sameCourse_of_idle { h with } rfl rfl

theorem sameCourse_recover (h : SameEnv s1 s2) : SameCourse (recover s1) (recover s2) :=
  sameCourse_of_idle { h with } rfl rfl

theorem sameCourse_finish (a : Status) (f : Fields) (n : BitVec 3) (h : SameEnv s1 s2) :
    SameCourse (finish a f n s1) (finish a f n s2) :=
  { h with
    st := rfl, in_busy := nofun, in_tx := nofun, in_window := nofun, in_backoff := nofun
    in_done := fun _ => ⟨rfl, rfl, rfl⟩ }

theorem sameCourse_accept (op : BitVec 3) (span : Half) (h : SameEnv s1 s2) :
    SameCourse (accept op span s1) (accept op span s2) :=
  { h with
    st := rfl, in_busy := fun _ => ⟨rfl, rfl, rfl⟩, in_tx := fun _ => rfl, in_window := nofun, in_backoff := nofun
    in_done := nofun }

theorem sameCourse_nextByte (h : SameCourse s1 s2) : SameCourse (nextByte s1) (nextByte s2) :=
  { h with in_tx := fun hs => congrArg (· + 1) (h.in_tx hs) }

variable (h : SameCourse s1 s2) (hb : s1.st.busy = true)
include h hb

theorem sameCourse_openWindow : SameCourse (openWindow s1) (openWindow s2) :=
  { h with
    st := rfl, in_busy := fun _ => h.in_busy hb, in_tx := nofun
    in_window := fun _ => ⟨rfl, fun _ _ hj => absurd hj (Nat.not_lt_zero _)⟩, in_backoff := nofun, in_done := nofun }

theorem sameCourse_retry : SameCourse (retry s1) (retry s2) :=
  have ⟨hop, hsp, hatt⟩ := h.in_busy hb
  { h with
    st := rfl, in_busy := fun _ => ⟨hop, hsp, congrArg (· + 1) hatt⟩, in_tx := fun _ => rfl, in_window := nofun
    in_backoff := nofun, in_done := nofun }

theorem sameCourse_startBackoff : SameCourse (startBackoff s1) (startBackoff s2) :=
  { h with
    st := rfl, in_busy := fun _ => h.in_busy hb, in_tx := nofun, in_window := nofun
    in_backoff := fun _ => by simp [h.params], in_done := nofun }

theorem sameCourse_afterBackoff : SameCourse (afterBackoff s1) (afterBackoff s2) := by
  obtain ⟨-, -, hatt⟩ := h.in_busy hb
  simp only [afterBackoff, ← h.params, ← hatt]
  split
  · exact sameCourse_finish _ _ _ h.toSameEnv
  · exact sameCourse_retry h hb

theorem sameCourse_fail : SameCourse (fail s1) (fail s2) := by
  simp only [fail, ← h.params]
  split
  · exact sameCourse_afterBackoff h hb
  · exact sameCourse_startBackoff h hb

theorem sameCourse_chanErr : SameCourse (chanErr s1) (chanErr s2) := by
  obtain ⟨-, -, hatt⟩ := h.in_busy hb
  simp only [chanErr, ← hatt]
  exact sameCourse_finish _ _ _ h.toSameEnv

omit hb

theorem sameCourse_countBackoff (hs : s1.st = .backoff) : SameCourse (countBackoff s1) (countBackoff s2) :=
  { h with in_backoff := fun _ => congrArg (· - 1) (h.in_backoff hs) }

theorem sameCourse_closeWindow (hs : s1.st = .rx) : SameCourse (closeWindow s1) (closeWindow s2) :=
  { h with
    st := rfl, in_busy := fun _ => h.in_busy (by rw [hs]; rfl), in_tx := nofun
    in_window := fun _ => h.in_window (.inl hs), in_backoff := nofun, in_done := nofun }

/-- A capture extends the agreement by the entry it writes. -/
theorem sameCourse_capture (b : Byte) (hs : s1.st = .rx) : SameCourse (capture b s1) (capture b s2) := by
  obtain ⟨hcnt, hbuf⟩ := h.in_window (.inl hs)
  have hbuf' (j : Nat) (hj9 : j < 9) (hj : j < (s1.rxCnt + 1).toNat) :
      (capture b s1).rxbuf[j] = (capture b s2).rxbuf[j] := by
    by_cases hlast : s1.rxCnt.toNat = j
    · rw [capture_read_same b s1 hj9 hlast, capture_read_same b s2 hj9 (hcnt ▸ hlast)]
    · rw [capture_read_other b s1 hj9 hlast, capture_read_other b s2 hj9 (hcnt ▸ hlast)]
      exact hbuf j hj9 (by bv_omega)
  exact { h with in_window := fun _ => ⟨congrArg (· + 1) hcnt, hbuf'⟩ }

/-- With nine bytes captured the whole buffer agrees, and with any other number no response is valid. -/
theorem rxbuf_eq_or_invalid (hs : s1.st = .chk) :
    s1.rxbuf = s2.rxbuf ∨ (respValid s1.rxCnt s1.rxbuf = false ∧ respValid s1.rxCnt s2.rxbuf = false) := by
  obtain ⟨-, hbuf⟩ := h.in_window (.inr hs)
  by_cases h9 : s1.rxCnt = 9
  · refine .inl (Vector.ext fun j hj => hbuf j hj ?_)
    rw [h9]
    exact hj
  · exact .inr ⟨respValid_of_cnt_ne h9 _, respValid_of_cnt_ne h9 _⟩

theorem sameCourse_txArm (hs : s1.st = .tx) (reads : Bool) (f : Frame) :
    SameCourse (txArm reads f s1) (txArm reads f s2) := by
  have hb : s1.st.busy = true := by rw [hs]; rfl
  obtain ⟨-, -, hatt⟩ := h.in_busy hb
  have hsent := sameCourse_transfer (frameByte f s1.txIdx) h
  simp only [txArm, endFrame, ← sameEnv_inputs h.toSameEnv, ← h.in_tx hs, transfer_att, ← hatt]
  split
  · split
    · exact sameCourse_nextByte hsent
    · split
      · exact sameCourse_openWindow hsent hb
      · exact sameCourse_finish _ _ _ hsent.toSameEnv
  · exact h

theorem sameCourse_rxCapture (hs : s1.st = .rx) : SameCourse (rxCapture s1) (rxCapture s2) := by
  simp only [rxCapture, ← sameEnv_inputs h.toSameEnv]
  split
  · exact sameCourse_capture h _ hs
  · exact h

theorem sameCourse_rxArm (hs : s1.st = .rx) : SameCourse (rxArm s1) (rxArm s2) := by
  have hc := sameCourse_rxCapture h hs
  have hst : (rxCapture s1).st = .rx := by
    simp only [rxCapture]
    split <;> exact hs
  obtain ⟨hcnt, -⟩ := hc.in_window (.inl hst)
  simp only [rxArm, ← sameEnv_inputs h.toSameEnv, ← hcnt]
  split
  · exact sameCourse_closeWindow hc hst
  · exact hc

theorem sameCourse_chkArm (hs : s1.st = .chk) (fields : Frame → Fields) :
    SameCourse (chkArm fields s1) (chkArm fields s2) := by
  have hb : s1.st.busy = true := by rw [hs]; rfl
  obtain ⟨-, -, hatt⟩ := h.in_busy hb
  obtain ⟨hcnt, -⟩ := h.in_window (.inr hs)
  rcases rxbuf_eq_or_invalid h hs with hbuf | ⟨hv1, hv2⟩
  · simp only [chkArm, ← hcnt, ← hbuf, ← hatt]
    split
    · exact sameCourse_finish _ _ _ h.toSameEnv
    · exact sameCourse_fail h hb
  · rw [chkArm_invalid _ hv1, chkArm_invalid _ (hcnt ▸ hv2)]
    exact sameCourse_fail h hb

theorem sameCourse_backoffArm (hs : s1.st = .backoff) : SameCourse (backoffArm s1) (backoffArm s2) := by
  simp only [backoffArm, ← h.in_backoff hs]
  split
  · exact sameCourse_afterBackoff h (by rw [hs]; rfl)
  · exact sameCourse_countBackoff h hs

theorem sameCourse_doneArm : SameCourse (doneArm s1) (doneArm s2) := by
  simp only [doneArm, ← sameEnv_inputs h.toSameEnv]
  split
  · exact sameCourse_takeResult h.toSameEnv
  · exact h

theorem sameCourse_specArm : SameCourse (specArm s1) (specArm s2) := by
  unfold specArm
  rw [← sameEnv_inputs h.toSameEnv, ← h.st]
  split
  · exact sameCourse_resetRegisters h.toSameEnv
  split
  next hb => exact sameCourse_chanErr h hb.1
  cases hs : s1.st with
  | idle =>
    dsimp only
    split
    · split
      · exact sameCourse_finish _ _ _ h.toSameEnv
      · exact sameCourse_accept _ _ h.toSameEnv
    · exact h
  | tx =>
    obtain ⟨hop, hsp, -⟩ := h.in_busy (by rw [hs]; rfl)
    dsimp only
    rw [← hop, ← hsp]
    exact sameCourse_txArm h hs _ _
  | rx => exact sameCourse_rxArm h hs
  | chk =>
    obtain ⟨hop, -, -⟩ := h.in_busy (by rw [hs]; rfl)
    dsimp only
    rw [← hop]
    exact sameCourse_chkArm h hs _
  | backoff => exact sameCourse_backoffArm h hs
  | done => exact sameCourse_doneArm h
  | code6 | code7 => exact sameCourse_recover h.toSameEnv

theorem sameCourse_txData : s1.txData = s2.txData := by
  by_cases hs : s1.st = .tx
  · obtain ⟨hop, hsp, -⟩ := h.in_busy (by rw [hs]; rfl)
    simp only [State.txData, ← h.st, hop, hsp, h.in_tx hs]
  · simp only [State.txData, ← h.st, if_neg hs]

theorem sameCourse_transferred : s1.transferred = s2.transferred := by
  simp only [State.transferred, ← h.st, ← sameEnv_inputs h.toSameEnv, sameCourse_txData h]

/-- A result on offer agrees with every output it is offered with. -/
theorem sameCourse_outputs_of_done (hs : s1.st = .done) : s1.outputs = s2.outputs := by
  obtain ⟨hres, hf, hn⟩ := h.in_done hs
  simp only [State.fields, Fields.mk.injEq] at hf
  obtain ⟨hco2, htemp, htt, hss, huhul⟩ := hf
  simp only [State.outputs, h.st, sameCourse_txData h, hres, hco2, htemp, htt, hss, huhul, hn]

end Course

theorem step_sent {s t : State} (h : step s = .next t) : t.sent = s.sent ++ s.transferred := by
  obtain ⟨u, hu, rfl⟩ := step_cases h
  exact hu.sent_eq

/-- Machines on the same course send the same bytes and stay on it for any number of edges. -/
theorem sameCourse_run (n : Nat) : ∀ {s1 s2 : State}, SameCourse s1 s2 →
    ∃ t1 t2 w, core.run n s1 = .next t1 ∧ core.run n s2 = .next t2 ∧
      t1.sent = s1.sent ++ w ∧ t2.sent = s2.sent ++ w ∧ SameCourse t1 t2 := by
  induction n with
  | zero => exact fun h => ⟨_, _, [], rfl, rfl, by simp, by simp, h⟩
  | succ n ih =>
    intro s1 s2 h
    have e1 := step_eq_specArm s1
    have e2 := step_eq_specArm s2
    obtain ⟨t1, t2, w, r1, r2, hw1, hw2, ht⟩ := ih (sameCourse_tick (sameCourse_specArm h))
    refine ⟨t1, t2, s1.transferred ++ w, by rw [run_succ n e1, r1], by rw [run_succ n e2, r2], ?_, ?_, ht⟩
    · rw [hw1, step_sent e1, List.append_assoc]
    · rw [hw2, step_sent e2, sameCourse_transferred h, List.append_assoc]

/-- Settles O52: two idle states agree on all that is still read, and they keep agreeing. -/
theorem operationsAreIndependentOfThePast : Obligations.OperationsAreIndependentOfThePast := by
  intro n s1 s2 h1 h2 hp hsc hcy
  obtain ⟨t1, t2, w, r1, r2, hw1, hw2, ht⟩ := sameCourse_run n (sameCourse_of_idle ⟨hp, hsc, hcy⟩ h1 h2)
  refine ⟨t1, t2, w, r1, r2, hw1, hw2, ?_, ?_, ?_, sameCourse_txData ht, ?_, ?_, fun hd => ?_⟩
  case refine_6 => exact sameCourse_outputs_of_done ht (by simpa [State.outputs] using hd)
  all_goals simp only [State.outputs, ht.st]

end Sys2Proof.Machine

namespace Sys2Proof.Machine

/-! Byte split and join of a 16-bit field as numbers (R62), and the fields of a frame that use them. -/

/-- No two bytes overflow the 16-bit field they are joined to. -/
theorem join16_toNat (hi lo : Byte) : (join16 hi lo).toNat = hi.toNat * 256 + lo.toNat := by
  have hhi := hi.isLt
  have hlo := lo.isLt
  rw [join16, BitVec.toNat_ofNat, Nat.mod_eq_of_lt (by omega)]

theorem loByte_toNat (v : Half) : (loByte v).toNat = v.toNat % 256 := by
  rw [loByte, BitVec.extractLsb'_toNat, Nat.shiftRight_zero]

/-- The shifted value has eight bits already, so the truncation to a byte loses nothing. -/
theorem hiByte_toNat (v : Half) : (hiByte v).toNat = v.toNat / 256 := by
  have hv := v.isLt
  rw [hiByte, BitVec.extractLsb'_toNat, Nat.shiftRight_eq_div_pow, Nat.mod_eq_of_lt (by omega)]

theorem decodeFields_readCo2 : decodeFields 0b000 = fieldsCo2 := decodeFields_other (by decide)

theorem cmdFrame_calSpan (span : Half) : cmdFrame 0b011 span = calSpanFrame span := rfl

theorem calSpanFrame_spanBytes (span : Half) :
    (calSpanFrame span)[3] = hiByte span ∧ (calSpanFrame span)[4] = loByte span := ⟨rfl, rfl⟩

/-- Settles O6: the numeric value of join and split, at the frame indices that the decoder reads and the encoder
writes. -/
theorem sixteenBitFieldsAreBigEndian : Obligations.SixteenBitFieldsAreBigEndian := by
  refine ⟨join16_toNat, fun buf => ?_, fun span => ?_⟩
  · rw [decodeFields_readAll, decodeFields_readCo2]
    exact ⟨rfl, rfl, rfl⟩
  · obtain ⟨hhi, hlo⟩ := calSpanFrame_spanBytes span
    rw [cmdFrame_calSpan, hhi, hlo]
    exact ⟨hiByte_toNat span, loByte_toNat span⟩

end Sys2Proof.Machine

namespace Sys2Proof.Machine

/-! The command word (R80 to R82, R93): operation, 19-bit word and three bytes, each way read back from the next. -/

/-- `cmd_op` and `cmd_span` hold all there is of an operation. -/
theorem decodeCw_opcode_span (i : Instr) : decodeCw i.opcode i.span = i := by
  cases i with
  | readCo2 span => exact Laws.DecodeCw.readCo2 span
  | readAll span => exact Laws.DecodeCw.readAll span
  | calZero span => exact Laws.DecodeCw.calZero span
  | calSpan span => exact Laws.DecodeCw.calSpan span
  | autocalOn span => exact Laws.DecodeCw.autocalOn span
  | autocalOff span => exact Laws.DecodeCw.autocalOff span
  | op6 span => exact Laws.DecodeCw.op6 span
  | op7 span => exact Laws.DecodeCw.op7 span

/-- A 16-bit span above a 3-bit code fits the word's 19 bits. -/
theorem encode_toNat (i : Instr) : (encode i).toNat = i.span.toNat * 8 + i.opcode.toNat := by
  have hspan := i.span.isLt
  have hop := i.opcode.isLt
  rw [encode, BitVec.toNat_ofNat, Nat.mod_eq_of_lt (by omega)]

theorem opField_toNat (w : CommandWord) : (w.extractLsb' 0 3).toNat = w.toNat % 8 := by
  rw [BitVec.extractLsb'_toNat, Nat.shiftRight_zero]

/-- The shifted word has sixteen bits already, so the truncation to a span loses nothing. -/
theorem spanField_toNat (w : CommandWord) : (w.extractLsb' 3 16).toNat = w.toNat / 8 := by
  have hw := w.isLt
  rw [BitVec.extractLsb'_toNat, Nat.shiftRight_eq_div_pow, Nat.mod_eq_of_lt (by omega)]

theorem decodeWord_encode (i : Instr) : decodeWord (encode i) = i := by
  have hop : (encode i).extractLsb' 0 3 = i.opcode := by
    apply BitVec.eq_of_toNat_eq
    rw [opField_toNat, encode_toNat]
    omega
  have hspan : (encode i).extractLsb' 3 16 = i.span := by
    apply BitVec.eq_of_toNat_eq
    rw [spanField_toNat, encode_toNat]
    omega
  rw [decodeWord, hop, hspan, decodeCw_opcode_span]

/-- No bit of the word is ignored. -/
theorem encode_decodeWord (w : CommandWord) : encode (decodeWord w) = w := by
  apply BitVec.eq_of_toNat_eq
  rw [encode_toNat, decodeWord, opcode_decodeCw, span_decodeCw, opField_toNat, spanField_toNat]
  omega

theorem byte_ofNat_of_mod {n : Nat} {b : Byte} (h : n % 2 ^ 8 = b.toNat) : BitVec.ofNat 8 n = b :=
  BitVec.eq_of_toNat_eq (by rw [BitVec.toNat_ofNat, h])

theorem bytesOfNat_natOfBytes (b0 b1 b2 : Byte) : bytesOfNat (natOfBytes b0 b1 b2) = [b0, b1, b2] := by
  rw [bytesOfNat, natOfBytes, byte_ofNat_of_mod (b := b0) (by omega), byte_ofNat_of_mod (b := b1) (by omega),
    byte_ofNat_of_mod (b := b2) (by omega)]

/-- Three bytes hold a number of 24 bits. -/
theorem natOfBytes_byteSplit {n : Nat} (h : n < 2 ^ 24) :
    natOfBytes (BitVec.ofNat 8 n) (BitVec.ofNat 8 (n / 2 ^ 8)) (BitVec.ofNat 8 (n / 2 ^ 16)) = n := by
  simp only [natOfBytes, BitVec.toNat_ofNat]
  omega

/-- A command word written as bytes is read back whole. -/
theorem decodeBytes_bytesOfNat (w : CommandWord) : decodeBytes (bytesOfNat w.toNat) = .ok (decodeWord w) := by
  have hw := w.isLt
  rw [bytesOfNat, decodeBytes, natOfBytes_byteSplit (by omega), if_pos hw, BitVec.ofNat_toNat, BitVec.setWidth_eq]

/-- The decoder accepts the bytes of a command word and nothing else. -/
theorem word_of_decodeBytes_ok {bs : List Byte} {i : Instr} (h : decodeBytes bs = .ok i) :
    ∃ w : CommandWord, bs = bytesOfNat w.toNat ∧ i = decodeWord w := by
  match bs with
  | [] | [_] | [_, _] | _ :: _ :: _ :: _ :: _ => simp [decodeBytes] at h
  | [b0, b1, b2] =>
    rw [decodeBytes] at h
    split at h
    next hlt =>
      refine ⟨BitVec.ofNat 19 (natOfBytes b0 b1 b2), ?_, (Except.ok.inj h).symm⟩
      rw [BitVec.toNat_ofNat, Nat.mod_eq_of_lt hlt, bytesOfNat_natOfBytes]
    next => simp at h

/-- Settles O13: both directions go through the 19-bit word, which the bytes and the operation determine alike. -/
theorem decodeEncodeAgree : Obligations.DecodeEncodeAgree := by
  refine ⟨fun i _ => ?_, fun bs i h => ?_⟩
  · rw [encodeBytes, decodeBytes_bytesOfNat, decodeWord_encode]
  · obtain ⟨w, rfl, rfl⟩ := word_of_decodeBytes_ok h
    rw [encodeBytes, encode_decodeWord]

/-- Settles O11: each code is its operation's `cmd_op`, so the laws of the eight operations are the clauses. -/
theorem commandOpSelectsOperation : Obligations.CommandOpSelectsOperation := fun span =>
  ⟨Laws.DecodeCw.readCo2 span, Laws.DecodeCw.readAll span, Laws.DecodeCw.calZero span, Laws.DecodeCw.calSpan span,
    Laws.DecodeCw.autocalOn span, Laws.DecodeCw.autocalOff span, Laws.DecodeCw.op6 span, Laws.DecodeCw.op7 span⟩

/-- Settles O12: each written word is the encoding of its operation, which decodes to it. -/
theorem writtenWordsDecode : Obligations.WrittenWordsDecode :=
  ⟨decodeWord_encode (.readCo2 0), decodeWord_encode (.readAll 0), decodeWord_encode (.calZero 0),
    decodeWord_encode (.calSpan 2000), decodeWord_encode (.autocalOn 0), decodeWord_encode (.autocalOff 0xABCD),
    decodeWord_encode (.op6 0), decodeWord_encode (.op7 0xFFFF)⟩

/-! The operation lines of the notation (R92). -/

/-- A line out of range stands for no operation. -/
theorem assemble_of_not_wellFormed {a : AsmOp} (h : a.wellFormed = false) : a.assemble = none := by
  simp [AsmOp.assemble, h]

theorem wellFormed_calSpan (n : Nat) : (AsmOp.calSpan n).wellFormed = decide (n ≤ 65535) := rfl

theorem wellFormed_op (k : Nat) : (AsmOp.op k).wellFormed = decide (k ≤ 7) := rfl

theorem wellFormed_setAutocal (b : Nat) : (AsmOp.setAutocal b).wellFormed = decide (b ≤ 1) := rfl

theorem assemble_calSpan {n : Nat} (h : n ≤ 65535) :
    (AsmOp.calSpan n).assemble = some (.calSpan (BitVec.ofNat 16 n)) := by
  rw [AsmOp.assemble, if_pos (by rw [wellFormed_calSpan, decide_eq_true h])]

theorem assemble_op {k : Nat} (h : k ≤ 7) : (AsmOp.op k).assemble = some (decodeCw (BitVec.ofNat 3 k) 0) := by
  rw [AsmOp.assemble, if_pos (by rw [wellFormed_op, decide_eq_true h])]

/-- Settles O14: within its range an operand fits its field unchanged, and outside it the line is not well
formed. -/
theorem notationStandsForOperations : Obligations.NotationStandsForOperations := by
  refine ⟨rfl, rfl, rfl, rfl, rfl, rfl, rfl, fun b hb => ?_, fun n hn => ?_, fun n hn => ?_, fun k hk => ?_,
    fun k hk => ?_⟩
  · exact assemble_of_not_wellFormed (by rw [wellFormed_setAutocal, decide_eq_false (by omega)])
  · exact ⟨_, by rw [BitVec.toNat_ofNat, Nat.mod_eq_of_lt (by omega)], assemble_calSpan hn⟩
  · exact assemble_of_not_wellFormed (by rw [wellFormed_calSpan, decide_eq_false (by omega)])
  · refine ⟨_, assemble_op hk, ?_, span_decodeCw _ _⟩
    rw [opcode_decodeCw, BitVec.toNat_ofNat, Nat.mod_eq_of_lt (by omega)]
  · exact assemble_of_not_wellFormed (by rw [wellFormed_op, decide_eq_false (by omega)])

end Sys2Proof.Machine

namespace Sys2Proof.Machine

/-! The checksum generator (R110 to R115). The checksum is a function of the byte sum modulo 256 alone, its negation
there; each law is read off that. -/

/-- The byte sum as the library's sum, which brings the library's laws of append and permutation. -/
theorem byteSum_eq_sum_map (a : List Byte) : byteSum a = (a.map BitVec.toNat).sum := by
  induction a with
  | nil => rfl
  | cons b bs ih => rw [byteSum, ih, List.map_cons, List.sum_cons]

theorem byteSum_append (a b : List Byte) : byteSum (a ++ b) = byteSum a + byteSum b := by
  simp only [byteSum_eq_sum_map, List.map_append, List.sum_append]

theorem byteSum_replicate_zero (k : Nat) : byteSum (List.replicate k 0x00) = 0 := by
  simp [byteSum_eq_sum_map]

theorem byteSum_perm {a b : List Byte} (h : a.Perm b) : byteSum a = byteSum b := by
  rw [byteSum_eq_sum_map, byteSum_eq_sum_map, (h.map BitVec.toNat).sum_eq]

/-- A sum of 0 mod 256 is R110's special case, which the outer `% 256` covers. -/
theorem checksum_toNat (a : List Byte) : (checksum a).toNat = (256 - byteSum a % 256) % 256 := by
  rw [checksum]
  split
  next hzero => rw [hzero]; rfl
  next => rw [BitVec.toNat_ofNat]; omega

theorem checksum_eq_neg_ofNat_byteSum (a : List Byte) : checksum a = -BitVec.ofNat 8 (byteSum a) := by
  apply BitVec.eq_of_toNat_eq
  rw [checksum_toNat, BitVec.toNat_neg, BitVec.toNat_ofNat]

theorem checksum_congr {a b : List Byte} (h : byteSum a = byteSum b) : checksum a = checksum b := by
  rw [checksum_eq_neg_ofNat_byteSum, checksum_eq_neg_ofNat_byteSum, h]

/-- The checksum is the only byte that completes the sum to 0 mod 256. -/
theorem eq_checksum_iff (a : List Byte) (c : Byte) : c = checksum a ↔ (byteSum a + c.toNat) % 256 = 0 := by
  have hc := c.isLt
  rw [← BitVec.toNat_inj, checksum_toNat]
  omega

theorem byteSum_concat_mod_eq_zero_iff (a : List Byte) (c : Byte) :
    byteSum (a ++ [c]) % 256 = 0 ↔ c = checksum a := by
  rw [eq_checksum_iff, byteSum_append]
  rfl

/-- The 8-bit adder drops its carries, so it holds the integer sum modulo 256 (R113). -/
theorem foldl_add_eq_ofNat_byteSum (a : List Byte) (acc : Byte) :
    a.foldl (· + ·) acc = acc + BitVec.ofNat 8 (byteSum a) := by
  induction a generalizing acc with
  | nil => exact (BitVec.add_zero acc).symm
  | cons b bs ih => rw [List.foldl_cons, ih, byteSum, BitVec.ofNat_add, BitVec.ofNat_toNat, BitVec.setWidth_eq,
      BitVec.add_assoc]

theorem checksum_eq_neg_foldl_add (a : List Byte) : checksum a = -(a.foldl (· + ·) 0) := by
  rw [checksum_eq_neg_ofNat_byteSum, foldl_add_eq_ofNat_byteSum]
  exact congrArg Neg.neg (BitVec.zero_add _).symm

/-- Settles O1: the value of the checksum gives the first two laws, and that it alone completes the sum to 0 mod 256
gives the third and its consequence for a frame. -/
theorem checksumLaws : Obligations.ChecksumLaws := by
  refine ⟨fun a => ?_, fun a hsum => ?_, fun a => (eq_checksum_iff a _).mp rfl,
    fun f => byteSum_concat_mod_eq_zero_iff [f[1], f[2], f[3], f[4], f[5], f[6], f[7]] f[8]⟩
  · rw [eq_comm, eq_checksum_iff]
    rfl
  · rw [checksum_toNat]
    omega

/-- Settles O2: the complement plus one is the negation, and `CK4` is the adder's run over the span frame's bytes
1 to 4, whose two constants add up to 0x89. -/
theorem checksumIsNegatedByteAdder : Obligations.ChecksumIsNegatedByteAdder := by
  refine ⟨checksum_eq_neg_foldl_add, fun a => ?_, checksum_toNat, fun span => ?_⟩
  · have hmod : BitVec.ofNat 8 (byteSum a % 256) = BitVec.ofNat 8 (byteSum a) :=
      byte_ofNat_of_mod (by rw [BitVec.toNat_ofNat]; omega)
    rw [hmod, checksum_eq_neg_ofNat_byteSum, BitVec.neg_eq_not_add]
    rfl
  · have hconst : (0 + 0x01 + 0x88 : Byte) = 0x89 := by decide
    rw [ck4, checksum_eq_neg_foldl_add, ← hconst]
    rfl

/-- Settles O3: neither a permutation nor added zero bytes change the byte sum. -/
theorem checksumIgnoresOrderAndZeroPadding : Obligations.ChecksumIgnoresOrderAndZeroPadding := by
  refine ⟨fun a b hperm => checksum_congr (byteSum_perm hperm), fun a k => checksum_congr ?_⟩
  rw [byteSum_append, byteSum_replicate_zero, Nat.add_zero]

end Sys2Proof.Machine

namespace Sys2Proof.Machine

/-! The command encoder (R121 to R129): the frame of each operation code, and the audit of the checksum bytes (R128)
that makes every sent frame well formed. -/

theorem cmdFrame_readCo2 (span : Half) : cmdFrame 0b000 span = readFrame := rfl

theorem cmdFrame_readAll (span : Half) : cmdFrame 0b001 span = readFrame := rfl

theorem cmdFrame_calZero (span : Half) : cmdFrame 0b010 span = calZeroFrame := rfl

theorem cmdFrame_autocalOn (span : Half) : cmdFrame 0b100 span = autocalOnFrame := rfl

theorem cmdFrame_autocalOff (span : Half) : cmdFrame 0b101 span = autocalOffFrame := rfl

theorem cmdFrame_op6 (span : Half) : cmdFrame 0b110 span = reservedFrame := rfl

theorem cmdFrame_op7 (span : Half) : cmdFrame 0b111 span = reservedFrame := rfl

theorem reservedFrame_eq_replicate : reservedFrame = Vector.replicate 9 0x00 := rfl

/-- Settles O4: R122's rows are the frames of R123 to R127 and R129. -/
theorem commandFrameTable : Obligations.CommandFrameTable := fun span =>
  ⟨cmdFrame_readCo2 span, cmdFrame_readAll span, cmdFrame_calZero span, cmdFrame_calSpan span,
    cmdFrame_autocalOn span, cmdFrame_autocalOff span, (cmdFrame_op6 span).trans reservedFrame_eq_replicate,
    (cmdFrame_op7 span).trans reservedFrame_eq_replicate⟩

/-- What a sent frame with command code `code` looks like: start byte, address byte, code, checksum of bytes 1..7. -/
def SendableAs (code : Byte) (f : Frame) : Prop :=
  f[0] = 0xFF ∧ f[1] = 0x01 ∧ f[2] = code ∧ f[8] = ck7 f

/-! The literal checksums agree with the checksum rule (R128). -/

theorem sendableAs_readFrame : SendableAs 0x86 readFrame := ⟨rfl, rfl, rfl, by decide⟩

theorem sendableAs_calZeroFrame : SendableAs 0x87 calZeroFrame := ⟨rfl, rfl, rfl, by decide⟩

theorem sendableAs_autocalOnFrame : SendableAs 0x79 autocalOnFrame := ⟨rfl, rfl, rfl, by decide⟩

theorem sendableAs_autocalOffFrame : SendableAs 0x79 autocalOffFrame := ⟨rfl, rfl, rfl, by decide⟩

/-- The span frame's shorter checksum window (R125) leaves out three zero bytes, which add nothing (R115). -/
theorem ck7_calSpanFrame (span : Half) : ck7 (calSpanFrame span) = ck4 span :=
  checksumIgnoresOrderAndZeroPadding.2 [0x01, 0x88, hiByte span, loByte span] 3

theorem sendableAs_calSpanFrame (span : Half) : SendableAs 0x88 (calSpanFrame span) :=
  ⟨rfl, rfl, rfl, (ck7_calSpanFrame span).symm⟩

/-- The six operation codes that are not reserved. -/
theorem sentCode_cases {op : BitVec 3} (h : op < 6) :
    op = 0b000 ∨ op = 0b001 ∨ op = 0b010 ∨ op = 0b011 ∨ op = 0b100 ∨ op = 0b101 := by
  revert op
  decide

/-- Settles O5: a code below 6 selects one of five frames, each sendable under the code's command byte. -/
theorem sentFramesCarryCodeAndChecksum : Obligations.SentFramesCarryCodeAndChecksum := by
  intro op span hop
  change SendableAs (cmdCode op) (cmdFrame op span)
  rcases sentCode_cases hop with rfl | rfl | rfl | rfl | rfl | rfl
  · exact sendableAs_readFrame
  · exact sendableAs_readFrame
  · exact sendableAs_calZeroFrame
  · exact sendableAs_calSpanFrame span
  · exact sendableAs_autocalOnFrame
  · exact sendableAs_autocalOffFrame

end Sys2Proof.Machine

namespace Sys2Proof.Machine

/-! The response validator (R140 to R149) and what an OK completion says about the response it decoded. -/

/-- R145's four conditions, one for each of R141 to R144. -/
theorem respValid_iff (cnt : BitVec 4) (buf : Frame) :
    respValid cnt buf = true ↔ cnt = 9 ∧ buf[0] = 0xFF ∧ buf[1] = 0x86 ∧ ck7 buf = buf[8] := by
  simp only [respValid, Bool.and_eq_true, beq_iff_eq, and_assoc]

/-- Settles O7: the four conditions are the validator's own, and R112 turns the last of them into the sum of
bytes 1 to 8. -/
theorem responseValidExactlyOnFourConditions : Obligations.ResponseValidExactlyOnFourConditions := by
  refine fun cnt buf => ⟨respValid_iff cnt buf, fun hv => ?_⟩
  obtain ⟨-, -, -, hck⟩ := (respValid_iff cnt buf).mp hv
  obtain ⟨-, -, -, hframe⟩ := checksumLaws
  exact (hframe buf).mpr hck.symm

/-- An edge that enters DONE with status OK is the valid case of CHK: every other completion writes another status,
and every other edge stays in its state or enters one that is not DONE (R147, R210, R214). -/
theorem StepCase.valid_of_enters_done_ok {s u : State} (h : StepCase s u) (hne : s.st ≠ .done)
    (hdone : u.st = .done) (hok : u.resStatus = .ok) :
    s.st = .chk ∧ s.inputs.rst = false ∧ s.inputs.chErr = false ∧ respValid s.rxCnt s.rxbuf = true ∧
      u = finish .ok (decodeFields s.opR s.rxbuf) s.att s := by
  cases h
  case valid hr he hs hv => exact ⟨hs, hr, he, hv, rfl⟩
  case channelError | illegal | txSent | failedAbsent | backoffAbsent => cases hok
  case idleWait | txWait | txNext | rxCaptureStay | rxWait | backoffCount | held => exact absurd hdone hne
  all_goals cases hdone

/-- Settles O45: the one case left is the valid one, whose `finish` writes the decoded fields and the attempt. -/
theorem noFalsePositiveDecode : Obligations.NoFalsePositiveDecode := by
  intro s t ht hne hdone hok
  obtain ⟨u, hu, rfl⟩ := step_cases ht
  obtain ⟨hs, hr, he, hv, rfl⟩ := hu.valid_of_enters_done_ok hne hdone hok
  exact ⟨hs, hr, he, hv, rfl, rfl⟩

end Sys2Proof.Machine

namespace Sys2Proof.Machine

/-! The measurement decoder (R160 to R169): the temperature as an exact 9-bit number, and the fields of both reads. -/

/-- Nine bits hold -256..255, so the offset of a byte by -40 does not wrap. -/
theorem temp9_toInt (b : Byte) : (temp9 b).toInt = (b.toNat : Int) - 40 := by
  have hb := b.isLt
  rw [temp9, BitVec.toInt_ofInt]
  exact Int.bmod_eq_of_le (by omega) (by omega)

theorem temp9_toNat (b : Byte) : ((temp9 b).toNat : Int) = ((b.toNat : Int) - 40) % 512 := by
  rw [temp9, BitVec.toNat_ofInt]
  exact Int.toNat_of_nonneg (Int.emod_nonneg _ (by decide))

theorem temp9_signExtend_toInt (b : Byte) : ((temp9 b).signExtend 16).toInt = (b.toNat : Int) - 40 := by
  rw [BitVec.toInt_signExtend_of_le (by decide), temp9_toInt]

/-- Reducing to a 9-bit pattern first, as R162 writes it, gives the same field. -/
theorem temp9_eq_ofInt_emod (b : Byte) : temp9 b = BitVec.ofInt 9 (((b.toNat : Int) - 40) % 512) := by
  apply BitVec.eq_of_toNat_eq
  rw [temp9, BitVec.toNat_ofInt, BitVec.toNat_ofInt]
  exact congrArg Int.toNat (Int.emod_emod_of_dvd _ (dvd_refl _)).symm

/-- The byte split of a 16-bit field loses nothing (R62). -/
theorem join16_hiByte_loByte (v : Half) : join16 (hiByte v) (loByte v) = v := by
  apply BitVec.eq_of_toNat_eq
  rw [join16_toNat, hiByte_toNat, loByte_toNat]
  exact Nat.div_add_mod' v.toNat 256

/-- Settles O8: the field is `temp9` of byte 4, whose signed value is exact; the range is that of a byte less 40. -/
theorem temperatureIsByteFourMinusForty : Obligations.TemperatureIsByteFourMinusForty := by
  intro buf
  have htemp : (decodeFields 0b001 buf).temp = temp9 buf[4] := by rw [decodeFields_readAll, fieldsAll]
  have hbyte := buf[4].isLt
  rw [htemp]
  refine ⟨temp9_toInt _, temp9_toNat _, temp9_signExtend_toInt _, ?_, ?_⟩
  · rw [temp9_toInt]
    omega
  · rw [temp9_toInt]
    omega

/-- Settles O9: each read decodes to its own field tuple, READ_ALL's temperature being the reduced pattern. -/
theorem decodedFieldsOfBothReads : Obligations.DecodedFieldsOfBothReads := by
  intro buf
  rw [decodeFields_readAll, decodeFields_readCo2, ← temp9_eq_ofInt_emod]
  exact ⟨rfl, rfl⟩

/-- Settles O10: the built frame meets R145's four conditions by construction, and decoding it joins the bytes that
building it split. -/
theorem builtResponseRoundTrips : Obligations.BuiltResponseRoundTrips := by
  rintro co2 uhul t ss f rfl
  rw [decodeFields_readAll]
  exact ⟨(respValid_iff _ _).mpr ⟨rfl, rfl, rfl, rfl⟩, join16_hiByte_loByte co2, rfl, rfl,
    join16_hiByte_loByte uhul, temp9_toInt t⟩

end Sys2Proof.Machine

namespace Sys2Proof.Machine

/-! One cycle of each operation at the positions where it can end (R180 to R186 with R203, R207, R210). -/

/-- In a busy state a channel error goes before whatever the operation would do (R203). -/
theorem opCycle_of_chErr (start : State → State) (reads : Bool) (frame : Frame) (fields : Frame → Fields) {s : State}
    (hb : s.st.busy = true) (he : s.inputs.chErr = true) : opCycle start reads frame fields s = chanErr s := by
  cases hs : s.st
  case tx => rw [opCycle_tx _ _ _ _ hs, unlessChanErr_error he]
  case rx => rw [opCycle_rx _ _ _ _ hs, unlessChanErr_error he]
  case chk => rw [opCycle_chk _ _ _ _ hs, unlessChanErr_error he]
  case backoff => rw [opCycle_backoff _ _ _ _ hs, unlessChanErr_error he]
  case idle | done | code6 | code7 => simp [hs, Fsm.busy] at hb

/-- Settles O21: each operation is the shared cycle, which puts the error before the arm of every busy state. -/
theorem everyOperationReportsChannelError : Obligations.EveryOperationReportsChannelError := by
  intro i s hb he
  rw [exec_eq_opCycle, opCycle_of_chErr _ _ _ _ hb he]
  rfl

theorem txArm_ninth (reads : Bool) (f : Frame) {s : State} (hr : s.inputs.txReady = true) (hx : s.txIdx = 8) :
    txArm reads f s = endFrame reads (transfer f[8] s) := by
  have hbyte : frameByte f s.txIdx = f[8] := by
    rw [hx]
    exact frameByte_of_lt f (by decide)
  have hlast : ¬ s.txIdx < 8 := by
    rw [hx]
    decide
  rw [txArm, if_pos hr, if_neg hlast, hbyte]

/-- The ninth transfer of an operation hands over its own frame's checksum byte and ends the frame (R207). -/
theorem exec_ninthTransfer (i : Instr) {s : State} (hs : s.st = .tx) (hc : s.inputs.chErr = false)
    (hr : s.inputs.txReady = true) (hx : s.txIdx = 8) :
    exec i s = .next (endFrame (isRead i.opcode) (transfer (cmdFrame i.opcode i.span)[8] s)) := by
  rw [exec_eq_opCycle, opCycle_tx _ _ _ _ hs, unlessChanErr_calm hc, txArm_ninth _ _ hr hx]

/-- Settles O27: none of the four codes is a read's, so the ninth transfer finishes with SENT. -/
theorem writeOnlyOperationsCompleteSent : Obligations.WriteOnlyOperationsCompleteSent := by
  intro span i s hi hs hc hr hx
  rw [exec_ninthTransfer i hs hc hr hx]
  rcases hi with rfl | rfl | rfl | rfl <;> rfl

/-- Settles O28: both codes are a read's, and their common frame ends in 79. -/
theorem readOperationsOpenWindow : Obligations.ReadOperationsOpenWindow := by
  intro span i s hi hs hc hr hx
  rw [exec_ninthTransfer i hs hc hr hx]
  rcases hi with rfl | rfl <;> rfl

theorem chkArm_valid (fields : Frame → Fields) {s : State} (hv : respValid s.rxCnt s.rxbuf = true) :
    chkArm fields s = finish .ok (fields s.rxbuf) s.att s := by
  rw [chkArm, if_pos hv]

/-- A valid response completes an operation with its own decoder's fields (R210). -/
theorem exec_validResponse (i : Instr) {s : State} (hs : s.st = .chk) (hc : s.inputs.chErr = false)
    (hv : respValid s.rxCnt s.rxbuf = true) :
    exec i s = .next (finish .ok (decodeFields i.opcode s.rxbuf) s.att s) := by
  rw [exec_eq_opCycle, opCycle_chk _ _ _ _ hs, unlessChanErr_calm hc, chkArm_valid _ hv]

/-- Settles O30: READ_CO2's decoder keeps the CO2 value alone. -/
theorem readCo2CompletesWithCo2Alone : Obligations.ReadCo2CompletesWithCo2Alone := by
  intro span s hs hc hv
  rw [exec_validResponse _ hs hc hv]
  rfl

/-- Settles O31: READ_ALL's decoder gives every field. -/
theorem readAllCompletesWithEveryField : Obligations.ReadAllCompletesWithEveryField := by
  intro span s hs hc hv
  rw [exec_validResponse _ hs hc hv]
  rfl

end Sys2Proof.Machine

namespace Sys2Proof.Machine

/-! Whole operations from IDLE to DONE (R279): acceptance, then the phases of `tx_phase`, `attempt_phase` and
`backoff_phase` end to end. -/

/-- The edge that accepts a presented, non-reserved operation (R204). -/
theorem accept_phase {i : Instr} {s : State} {cmd : Inputs} {rest : List Inputs} (hs : s.st = .idle)
    (hp : presents i cmd) (hi : isReserved i.opcode = false) (hsc : s.script = cmd :: rest) :
    Passes 1 s (accept i.opcode i.span s).tick := by
  obtain ⟨hr, hv, hop, hspan⟩ := hp
  have hin := inputs_of_script s hsc
  have hstep : step s = .next (accept i.opcode i.span s).tick := by
    rw [step_eq_specArm]
    simp [specArm, hs, hin, hr, hv, hop, hspan, hi, Fsm.busy]
  exact .one (by rw [hs]; nofun) hstep

theorem not_reserved_and_not_read_of_writeOnly {op : BitVec 3} (h2 : 2 ≤ op) (h5 : op ≤ 5) :
    isReserved op = false ∧ isRead op = false := by
  revert op
  decide

/-- Settles O54: the accepting edge, then one frame's cycles, whose last edge finishes with SENT. -/
theorem writeOnlyOperationRuns : Obligations.WriteOnlyOperationRuns := by
  intro i s cmd txs rest h2 h5 hs hp ht hsc
  obtain ⟨hres, hread⟩ := not_reserved_and_not_read_of_writeOnly h2 h5
  have haccept := accept_phase hs hp hres hsc
  have hframe := tx_phase (s := (accept i.opcode i.span s).tick) (rest := rest) rfl rfl
    (by rw [tick_script, accept_script, hsc]; rfl) ht
  rw [tick_opR, accept_opR, hread] at hframe
  exact ⟨_, (haccept.trans hframe).firstDone rfl, rfl, rfl, rfl, rfl⟩

/-- One more frame on the wire after `n` of them (R61). -/
theorem framesOf_append_frame (f : Frame) (n : Nat) : framesOf f n ++ f.toList = framesOf f (n + 1) := by
  induction n with
  | zero => simp [framesOf]
  | succ n ih => rw [framesOf, List.append_assoc, ih, ← framesOf]

theorem windowValid_of_length_ne {bytes : List Byte} (h : bytes.length ≠ 9) : windowValid bytes = false := by
  unfold windowValid
  split
  · exact absurd rfl h
  · rfl

/-- The validator's bit for a closed window depends on the captured bytes alone, not on what the buffer held before
(R141, R145, R208). -/
theorem respValid_fill (buf : Frame) {bytes : List Byte} (h : bytes.length ≤ 9) :
    respValid (BitVec.ofNat 4 bytes.length) (fill buf bytes 0) = windowValid bytes := by
  by_cases h9 : bytes.length = 9
  · match bytes, h9 with
    | [b0, b1, b2, b3, b4, b5, b6, b7, b8], _ =>
      exact congrArg (respValid 9) (fill_frame buf #v[b0, b1, b2, b3, b4, b5, b6, b7, b8])
  · have hcnt : BitVec.ofNat 4 bytes.length ≠ 9 := by
      intro e
      have hmod : bytes.length % 16 = 9 := congrArg BitVec.toNat e
      omega
    rw [respValid_of_cnt_ne hcnt, windowValid_of_length_ne h9]

/-- A failed check and its backoff, up to the edge that decides between another attempt and ABSENT (R211, R212). -/
theorem fail_phase {s : State} {chk : Inputs} {waits rest : List Inputs} (hs : s.st = .chk)
    (hsc : s.script = chk :: (waits ++ rest)) (hv : respValid s.rxCnt s.rxbuf = false) (hchk : calm chk)
    (hlen : waits.length = s.params.backoffCycles.toNat) (hw : ∀ inp ∈ waits, calm inp) :
    ∃ st bo cycle, Passes (1 + waits.length) s
      (afterBackoff { s with st := st, boCnt := bo, script := rest, cycle := cycle }) := by
  have hin := inputs_of_script s hsc
  have hd : s.st ≠ .done := by rw [hs]; nofun
  have hstep : step s = .next (fail s).tick := by
    rw [step_chk_calm (by rw [hin]; exact hchk.1) (by rw [hin]; exact hchk.2) hs, chkArm_invalid _ hv]
  rcases fail_cases s with ⟨hb, e⟩ | ⟨hb, e⟩
  · have hnil : waits = [] := by simpa [hb] using hlen
    subst hnil
    rw [e, afterBackoff_tick] at hstep
    have htick : s.tick = { s with st := s.st, boCnt := s.boCnt, script := rest, cycle := s.cycle + 1 } := by
      simp [State.tick, hsc]
    rw [htick] at hstep
    exact ⟨_, _, _, .one hd hstep⟩
  · rw [e] at hstep
    have hcount : (s.params.backoffCycles - 1).toNat + 1 = waits.length := by
      have : s.params.backoffCycles.toNat ≠ 0 := fun h => hb (BitVec.eq_of_toNat_eq h)
      bv_omega
    have hwait := backoff_phase rest waits (startBackoff s).tick rfl
      (by rw [tick_script, startBackoff_script, hsc]; rfl) hw hcount
    exact ⟨_, _, _, (Passes.one hd hstep).trans hwait⟩

/-- `s` is in attempt `failed + 1` of operation `i`: `frames` whole frames follow `base` on the wire, and `inps` are
the inputs to come (R217). -/
structure InAttempt (i : Instr) (p : Params) (base : List Byte) (failed frames : Nat) (inps : List Inputs)
    (s : State) : Prop where
  opR : s.opR = i.opcode
  spanR : s.spanR = i.span
  params : s.params = p
  att : s.att.toNat = failed + 1
  script : s.script = inps
  sent : s.sent = base ++ framesOf (cmdFrame i.opcode i.span) frames

/-- As `InAttempt`, with the attempt's first byte on offer (R204, R213). -/
structure StartsAttempt (i : Instr) (p : Params) (base : List Byte) (failed : Nat) (inps : List Inputs)
    (s : State) : Prop extends InAttempt i p base failed failed inps s where
  st : s.st = .tx
  txIdx : s.txIdx = 0

section Reads

variable {i : Instr} {p : Params} {base : List Byte} {failed : Nat} {s : State} {rest : List Inputs}

/-- An accepted operation starts its first attempt. -/
theorem startsAttempt_accept {cmd : Inputs} (hsc : s.script = cmd :: rest) :
    StartsAttempt i s.params s.sent 0 rest (accept i.opcode i.span s).tick where
  opR := rfl
  spanR := rfl
  params := rfl
  att := rfl
  script := by rw [tick_script, accept_script, hsc]; rfl
  sent := by simp [framesOf]
  st := rfl
  txIdx := rfl

/-- While attempts are left, the next one starts after the backoff (R213). -/
theorem startsAttempt_retry (h : InAttempt i p base failed (failed + 1) rest s)
    (hleft : failed + 1 < p.maxAttempts.toNat) : StartsAttempt i p base (failed + 1) rest (retry s) where
  opR := h.opR
  spanR := h.spanR
  params := h.params
  att := by
    have := h.att
    have := p.maxAttempts.isLt
    rw [retry_att]
    bv_omega
  script := h.script
  sent := h.sent
  st := rfl
  txIdx := rfl

/-- The frame and the window of an attempt: CHK is reached with the captured bytes counted and stored. -/
theorem attempt_to_chk {txs rxs : List Inputs} {bytes : List Byte}
    (h : StartsAttempt i p base failed (txs ++ (rxs ++ rest)) s) (hread : isRead i.opcode = true)
    (ht : transfersFrame txs) (hw : closesWindow rxs bytes) :
    bytes.length ≤ 9 ∧ ∃ t, Passes (txs.length + rxs.length) s t ∧ t.st = .chk ∧
      t.rxCnt = BitVec.ofNat 4 bytes.length ∧ t.rxbuf = fill s.rxbuf bytes 0 ∧
      InAttempt i p base failed (failed + 1) rest t := by
  obtain ⟨hlen, hpass⟩ := attempt_phase h.st h.txIdx (by rw [h.opR]; exact hread) h.script ht hw
  refine ⟨hlen, _, hpass, rfl, rfl, rfl, h.opR, h.spanR, h.params, h.att, rfl, ?_⟩
  show s.sent ++ (cmdFrame s.opR s.spanR).toList = _
  rw [h.sent, h.opR, h.spanR, List.append_assoc, framesOf_append_frame]

/-- A failed attempt, up to the edge that decides what follows it: one more frame is on the wire (R211, R217). -/
theorem failedAttempt_phase {a : List Inputs} (h : StartsAttempt i p base failed (a ++ rest) s)
    (hread : isRead i.opcode = true) (ha : failedAttempt p.backoffCycles.toNat a) :
    ∃ u, Passes a.length s (afterBackoff u) ∧ InAttempt i p base failed (failed + 1) rest u := by
  obtain ⟨txs, rxs, bytes, chk, waits, rfl, ht, hw, hinv, hchk, hlen, hwaits⟩ := ha
  obtain ⟨h9, t, hpass, hst, hcnt, hbuf, hin⟩ := attempt_to_chk (rest := chk :: (waits ++ rest))
    (by simpa using h) hread ht hw
  obtain ⟨st, bo, cycle, hfail⟩ := fail_phase hst hin.script (by rw [hcnt, hbuf, respValid_fill _ h9, hinv]) hchk
    (by rw [hin.params]; exact hlen) hwaits
  have hcycles : (txs ++ rxs ++ [chk] ++ waits).length = txs.length + rxs.length + (1 + waits.length) := by
    simp only [List.length_append, List.length_singleton]
    omega
  rw [hcycles]
  exact ⟨_, hpass.trans hfail, hin.opR, hin.spanR, hin.params, hin.att, rfl, hin.sent⟩

/-- A failed attempt that is not the last leads to the start of the next one (R213, R217). -/
theorem failedAttempt_then_next {a : List Inputs} (h : StartsAttempt i p base failed (a ++ rest) s)
    (hread : isRead i.opcode = true) (ha : failedAttempt p.backoffCycles.toNat a)
    (hleft : failed + 1 < p.maxAttempts.toNat) :
    ∃ t, Passes a.length s t ∧ StartsAttempt i p base (failed + 1) rest t := by
  obtain ⟨u, hpass, hin⟩ := failedAttempt_phase h hread ha
  have hagain : ¬ u.params.maxAttempts ≤ u.att := by
    rw [hin.params, BitVec.le_def, hin.att]
    omega
  rw [afterBackoff_again hagain] at hpass
  exact ⟨_, hpass, startsAttempt_retry hin hleft⟩

/-- Any number of failed attempts short of MAX_ATTEMPTS leads to the start of the next one. -/
theorem failedAttempts_then_next (hread : isRead i.opcode = true) (failures : List (List Inputs)) :
    ∀ {failed : Nat} {s : State}, StartsAttempt i p base failed (failures.flatten ++ rest) s →
      (∀ a ∈ failures, failedAttempt p.backoffCycles.toNat a) → failed + failures.length < p.maxAttempts.toNat →
      ∃ t, Passes failures.flatten.length s t ∧ StartsAttempt i p base (failed + failures.length) rest t := by
  induction failures with
  | nil => exact fun h _ _ => ⟨_, .refl _, h⟩
  | cons a failures ih =>
    intro failed s h hfail hleft
    rw [List.length_cons] at hleft ⊢
    obtain ⟨u, hu, hnext⟩ := failedAttempt_then_next (rest := failures.flatten ++ rest) (by simpa using h) hread
      (hfail a (List.mem_cons_self ..)) (by omega)
    obtain ⟨t, ht, hend⟩ := ih hnext (fun b hb => hfail b (List.mem_cons_of_mem _ hb)) (by omega)
    refine ⟨t, ?_, ?_⟩
    · simpa using hu.trans ht
    · rwa [show failed + (failures.length + 1) = failed + 1 + failures.length by omega]

/-- An attempt whose window captures a valid response completes the read with OK in the cycle after its window (R210). -/
theorem validAttempt_phase {txs rxs : List Inputs} {chk : Inputs} {f : Frame}
    (h : StartsAttempt i p base failed (txs ++ (rxs ++ chk :: rest)) s) (hread : isRead i.opcode = true)
    (ht : transfersFrame txs) (hw : closesWindow rxs f.toList) (hv : respValid 9 f = true) (hchk : calm chk) :
    ∃ u, Passes (txs.length + rxs.length + 1) s (finish .ok (decodeFields i.opcode f) u.att u).tick ∧
      InAttempt i p base failed (failed + 1) (chk :: rest) u := by
  obtain ⟨-, u, hpass, hst, hcnt, hbuf, hin⟩ := attempt_to_chk h hread ht hw
  rw [fill_frame] at hbuf
  rw [Vector.length_toList] at hcnt
  have hinp := inputs_of_script u hin.script
  have hstep : step u = .next (finish .ok (decodeFields i.opcode f) u.att u).tick := by
    rw [step_chk_calm (by rw [hinp]; exact hchk.1) (by rw [hinp]; exact hchk.2) hst,
      chkArm_valid _ (by rw [hcnt, hbuf]; exact hv), hin.opR, hbuf]
  exact ⟨u, hpass.trans (.one (by rw [hst]; nofun) hstep), hin⟩

end Reads

theorem not_reserved_of_isRead {op : BitVec 3} (h : isRead op = true) : isReserved op = false := by
  revert op
  decide

/-- Settles O55: the accepting edge, the failed attempts one by one, each counted and with its frame on the wire, then
the attempt that succeeds. -/
theorem readOperationSucceedsAtAttempt : Obligations.ReadOperationSucceedsAtAttempt := by
  rintro i s cmd chk failures txs rxs rest bytes f hread - hs hp hless hfail ht hw rfl hv hchk hsc
  have hsc' : s.script = cmd :: (failures.flatten ++ (txs ++ (rxs ++ chk :: rest))) := by simpa using hsc
  have haccept := accept_phase hs hp (not_reserved_of_isRead hread) hsc'
  obtain ⟨t, hfailed, hstart⟩ := failedAttempts_then_next hread failures (startsAttempt_accept hsc') hfail (by omega)
  rw [Nat.zero_add] at hstart
  obtain ⟨u, hvalid, hin⟩ := validAttempt_phase hstart hread ht hw hv hchk
  have hcycles : 1 + failures.flatten.length + txs.length + rxs.length + 1 =
      1 + failures.flatten.length + (txs.length + rxs.length + 1) := by omega
  rw [hcycles]
  exact ⟨_, ((haccept.trans hfailed).trans hvalid).firstDone rfl, rfl, rfl, hin.att, hin.sent⟩

end Sys2Proof.Machine

namespace Sys2Proof.Machine

/-! The step position by position (R200): what one edge without a reset or a channel error does in each state, and
the exact effect of each arm in its cases. -/

theorem step_reset {s : State} (hr : s.inputs.rst = true) : step s = .next (resetRegisters s).tick := by
  simp [step, hr]

/-- In a busy state a channel error goes before the state's own arm (R203). -/
theorem step_of_chErr {s : State} (hr : s.inputs.rst = false) (hb : s.st.busy = true) (he : s.inputs.chErr = true) :
    step s = .next (chanErr s).tick := by
  rw [step_of_busy hr hb, opCycle_of_chErr _ _ _ _ hb he]

/-- IDLE with a command runs the operation presented (R93, R204). -/
theorem step_idle_command {s : State} (hr : s.inputs.rst = false) (hs : s.st = .idle)
    (hv : s.inputs.cmdValid = true) : step s = ticked (exec (decodeCw s.inputs.cmdOp s.inputs.cmdSpan) s) := by
  simp [step, State.current, hr, hs, hv]

theorem step_idle_wait {s : State} (hr : s.inputs.rst = false) (hs : s.st = .idle)
    (hv : s.inputs.cmdValid = false) : step s = .next s.tick := by
  simp [step, State.current, betweenOps, hr, hs, hv]

theorem step_tx_calm {s : State} (hr : s.inputs.rst = false) (hc : s.inputs.chErr = false) (hs : s.st = .tx) :
    step s = .next (txArm (isRead s.opR) (cmdFrame s.opR s.spanR) s).tick := by
  rw [step_of_busy hr (by rw [hs]; rfl), opCycle_tx _ _ _ _ hs, unlessChanErr_calm hc]

theorem step_rx_calm {s : State} (hr : s.inputs.rst = false) (hc : s.inputs.chErr = false) (hs : s.st = .rx) :
    step s = .next (rxArm s).tick := by
  rw [step_of_busy hr (by rw [hs]; rfl), opCycle_rx _ _ _ _ hs, unlessChanErr_calm hc]

theorem step_backoff_calm {s : State} (hr : s.inputs.rst = false) (hc : s.inputs.chErr = false)
    (hs : s.st = .backoff) : step s = .next (backoffArm s).tick := by
  rw [step_of_busy hr (by rw [hs]; rfl), opCycle_backoff _ _ _ _ hs, unlessChanErr_calm hc]

theorem step_done {s : State} (hr : s.inputs.rst = false) (hs : s.st = .done) :
    step s = .next (doneArm s).tick := by
  simp [step, State.current, betweenOps, hr, hs, Fsm.busy]

theorem step_unreachable {s : State} (hr : s.inputs.rst = false) (hs : s.st = .code6 ∨ s.st = .code7) :
    step s = .next (recover s).tick := by
  rcases hs with hs | hs <;> simp [step, State.current, betweenOps, hr, hs, Fsm.busy]

theorem txArm_not_ready (reads : Bool) (f : Frame) {s : State} (hr : s.inputs.txReady = false) :
    txArm reads f s = s := by
  simp [txArm, hr]

/-- A transfer below index 8 hands over the byte on offer and moves to the next (R206). -/
theorem txArm_next (reads : Bool) (f : Frame) {s : State} (hr : s.inputs.txReady = true) (hx : s.txIdx < 8)
    (h9 : s.txIdx.toNat < 9) : txArm reads f s = nextByte (transfer f[s.txIdx.toNat] s) := by
  rw [txArm, if_pos hr, if_pos hx, frameByte_of_lt f h9]

theorem doneArm_not_ready {s : State} (h : s.inputs.rspReady = false) : doneArm s = s := by
  simp [doneArm, h]

theorem doneArm_ready {s : State} (h : s.inputs.rspReady = true) : doneArm s = takeResult s := by
  simp [doneArm, h]

theorem fail_backoff {s : State} (hb : s.params.backoffCycles ≠ 0) : fail s = startBackoff s := by
  simp only [fail, if_neg hb]

theorem backoffArm_end {s : State} (h : s.boCnt = 0) : backoffArm s = afterBackoff s := by
  simp only [backoffArm, if_pos h]

theorem backoffArm_count {s : State} (h : s.boCnt ≠ 0) : backoffArm s = countBackoff s := by
  simp only [backoffArm, if_neg h]

/-- A non-reserved operation in IDLE is accepted (R204). -/
theorem exec_accept {i : Instr} {s : State} (hi : isReserved i.opcode = false) (hs : s.st = .idle) :
    exec i s = .next (accept i.opcode i.span s) := by
  simp [exec_eq_opCycle, opCycle_idle _ _ _ _ hs, startOf, hi]

/-- A reserved operation in IDLE completes at once (R205). -/
theorem exec_illegalOp {i : Instr} {s : State} (hi : isReserved i.opcode = true) (hs : s.st = .idle) :
    exec i s = .next (illegalOp s) := by
  simp [exec_eq_opCycle, opCycle_idle _ _ _ _ hs, startOf, hi]

theorem not_reserved_of_lt_six {op : BitVec 3} (h : op < 6) : isReserved op = false := by
  revert op
  decide

/-- In TX the byte on offer is that of the latched operation's frame (R201). -/
theorem txData_of_tx {s : State} (hs : s.st = .tx) (h9 : s.txIdx.toNat < 9) :
    s.txData = (cmdFrame s.opR s.spanR)[s.txIdx.toNat] := by
  rw [State.txData, if_pos hs, frameByte_of_lt _ h9]

theorem txData_of_not_tx {s : State} (hs : s.st ≠ .tx) : s.txData = 0x00 := if_neg hs

/-! Taking a step. -/

/-- Settles O15: the equations of the step, position by position. -/
theorem stepRunsCurrentOperation : Obligations.StepRunsCurrentOperation := by
  refine ⟨fun s => step_idle_command, fun s hr hb => ?_, fun s => step_idle_wait, fun s => step_done,
    fun s => step_reset⟩
  rw [step_of_busy hr hb, exec_eq_opCycle, opcode_decodeCw, span_decodeCw]
  rfl

/-- Settles O17: the ordered list of arms is the step, in every state. -/
theorem stepFollowsArmOrder : Obligations.StepFollowsArmOrder := step_eq_specArm

/-- Three bytes determine the number below 2^24 they were written from. -/
theorem bytesOfNat_inj {m n : Nat} (hm : m < 2 ^ 24) (hn : n < 2 ^ 24) (h : bytesOfNat m = bytesOfNat n) :
    m = n := by
  simp only [bytesOfNat, List.cons.injEq, and_true] at h
  obtain ⟨h0, h1, h2⟩ := h
  rw [← natOfBytes_byteSplit hm, ← natOfBytes_byteSplit hn, h0, h1, h2]

/-- What a table word decodes to is what the command word of its bits decodes to. -/
theorem decodeWord_of_decodeTableWord {nbits w : Nat} {i : Instr} (h : decodeTableWord nbits w = some i) :
    decodeWord (BitVec.ofNat 19 (w % 2 ^ nbits)) = i := by
  simp only [decodeTableWord] at h
  split at h
  next hlt =>
    split at h
    next hok =>
      obtain ⟨cw, hbytes, hi⟩ := word_of_decodeBytes_ok hok
      have hcw := cw.isLt
      rw [bytesOfNat_inj hlt (by omega) hbytes, BitVec.ofNat_toNat, BitVec.setWidth_eq, ← hi]
      exact Option.some.inj h
    next => cases h
  next => cases h

/-- Settles O16: the placed state is IDLE with the word's operation on the command port, so the step runs it. -/
theorem placedWordIsRunNext : Obligations.PlacedWordIsRunNext := by
  intro s nbits w i h
  rw [← decodeWord_of_decodeTableWord h]
  exact step_idle_command rfl rfl rfl

/-- Settles O18: the reset arm comes first, and its registers and outputs are those of `ResetState`. -/
theorem resetGivesEveryRegisterItsValue : Obligations.ResetGivesEveryRegisterItsValue := fun _ hr =>
  ⟨_, step_reset hr, rfl, rfl, rfl, rfl, rfl, rfl, rfl, rfl, rfl, rfl, rfl, rfl, rfl, rfl, rfl, rfl⟩

/-! Inputs a state does not read (R216). -/

/-- CHK and BACKOFF read no inputs in their arms, so counting the edge may go first. -/
theorem fail_tick (s : State) : (fail s).tick = fail s.tick := by
  rcases fail_cases s with ⟨h, e⟩ | ⟨h, e⟩ <;> rw [e]
  · rw [fail_noBackoff (s := s.tick) h, afterBackoff_tick]
  · rw [fail_backoff (s := s.tick) h]
    rfl

theorem chkArm_tick (fields : Frame → Fields) (s : State) : (chkArm fields s).tick = chkArm fields s.tick := by
  rcases chkArm_cases fields s with ⟨h, e⟩ | ⟨h, e⟩ <;> rw [e]
  · rw [chkArm_valid (s := s.tick) _ h]
    rfl
  · rw [chkArm_invalid (s := s.tick) _ h, fail_tick]

theorem backoffArm_tick (s : State) : (backoffArm s).tick = backoffArm s.tick := by
  rcases backoffArm_cases s with ⟨h, e⟩ | ⟨h, e⟩ <;> rw [e]
  · rw [backoffArm_end (s := s.tick) h, afterBackoff_tick]
  · rw [backoffArm_count (s := s.tick) h]
    rfl

section SameRegisters

variable {s1 s2 : State} (h : s1.tick = s2.tick)
include h

theorem idle_command_congr (i : Instr) (hs1 : s1.st = .idle) (hs2 : s2.st = .idle) :
    ticked (exec i s1) = ticked (exec i s2) := by
  cases hi : isReserved i.opcode
  · rw [exec_accept hi hs1, exec_accept hi hs2]
    exact congrArg (fun s => Host.Outcome.next (accept i.opcode i.span s)) h
  · rw [exec_illegalOp hi hs1, exec_illegalOp hi hs2]
    exact congrArg (fun s => Host.Outcome.next (illegalOp s)) h

theorem txArm_congr (reads : Bool) (f : Frame) (hr : s1.inputs.txReady = s2.inputs.txReady) :
    (txArm reads f s1).tick = (txArm reads f s2).tick := by
  have hx : s1.txIdx = s2.txIdx := by simpa using congrArg State.txIdx h
  have hsent : (transfer (frameByte f s2.txIdx) s1).tick = (transfer (frameByte f s2.txIdx) s2).tick :=
    congrArg (transfer _) h
  simp only [txArm, endFrame, hr, hx]
  split
  · split
    · exact congrArg nextByte hsent
    · split
      · exact congrArg openWindow hsent
      · exact congrArg (fun s => finish .sent zeroFields s.att s) hsent
  · exact h

theorem rxArm_congr (hv : s1.inputs.rxValid = s2.inputs.rxValid) (hd : s1.inputs.rxData = s2.inputs.rxData)
    (ht : s1.inputs.rxTimeout = s2.inputs.rxTimeout) : (rxArm s1).tick = (rxArm s2).tick := by
  have hcap : (rxCapture s1).tick = (rxCapture s2).tick := by
    simp only [rxCapture, hv, hd]
    split
    · exact congrArg (capture _) h
    · exact h
  have hcnt : (rxCapture s1).rxCnt = (rxCapture s2).rxCnt := by simpa using congrArg State.rxCnt hcap
  simp only [rxArm, hcnt, ht]
  split
  · exact congrArg closeWindow hcap
  · exact hcap

theorem doneArm_congr (hr : s1.inputs.rspReady = s2.inputs.rspReady) : (doneArm s1).tick = (doneArm s2).tick := by
  simp only [doneArm, hr]
  split
  · exact congrArg takeResult h
  · exact h

/-- The step of a busy state, given its arm: a channel error, which every busy state reads, goes first. -/
theorem busy_congr (hr1 : s1.inputs.rst = false) (hr2 : s2.inputs.rst = false) (hb : s1.st.busy = true)
    (he : s1.inputs.chErr = s2.inputs.chErr)
    (harm : s1.inputs.chErr = false → s2.inputs.chErr = false → step s1 = step s2) : step s1 = step s2 := by
  have hst : s1.st = s2.st := by simpa using congrArg State.st h
  cases he2 : s2.inputs.chErr
  · exact harm (he.trans he2) he2
  · rw [step_of_chErr hr1 hb (he.trans he2), step_of_chErr hr2 (hst ▸ hb) he2]
    exact congrArg (fun s => Host.Outcome.next (chanErr s)) h

/-- Two states with the same registers that agree on the inputs read take the same step. -/
theorem step_congr (hagree : agreeOnRead s1.st s1.inputs s2.inputs) : step s1 = step s2 := by
  obtain ⟨hrst, hread⟩ := hagree
  cases hr2 : s2.inputs.rst
  case true =>
    rw [step_reset (hrst.trans hr2), step_reset hr2]
    exact congrArg (fun s => Host.Outcome.next (resetRegisters s)) h
  have hr1 := hrst.trans hr2
  have hst : s1.st = s2.st := by simpa using congrArg State.st h
  have hop : s1.opR = s2.opR := by simpa using congrArg State.opR h
  have hsp : s1.spanR = s2.spanR := by simpa using congrArg State.spanR h
  cases hs1 : s1.st <;> rw [hs1] at hread <;> have hs2 := hst.symm.trans hs1
  case idle =>
    obtain ⟨hv, hcop, hcspan⟩ := hread
    cases hv2 : s2.inputs.cmdValid
    · rw [step_idle_wait hr1 hs1 (hv.trans hv2), step_idle_wait hr2 hs2 hv2, h]
    · rw [step_idle_command hr1 hs1 (hv.trans hv2), step_idle_command hr2 hs2 hv2, hcop, hcspan,
        idle_command_congr h _ hs1 hs2]
  case tx =>
    obtain ⟨he, hready⟩ := hread
    refine busy_congr h hr1 hr2 (by rw [hs1]; rfl) he fun he1 he2 => ?_
    rw [step_tx_calm hr1 he1 hs1, step_tx_calm hr2 he2 hs2, hop, hsp, txArm_congr h _ _ hready]
  case rx =>
    obtain ⟨he, hv, hd, ht⟩ := hread
    refine busy_congr h hr1 hr2 (by rw [hs1]; rfl) he fun he1 he2 => ?_
    rw [step_rx_calm hr1 he1 hs1, step_rx_calm hr2 he2 hs2, rxArm_congr h hv hd ht]
  case chk =>
    refine busy_congr h hr1 hr2 (by rw [hs1]; rfl) hread fun he1 he2 => ?_
    rw [step_chk_calm hr1 he1 hs1, step_chk_calm hr2 he2 hs2, hop, chkArm_tick, chkArm_tick, h]
  case backoff =>
    refine busy_congr h hr1 hr2 (by rw [hs1]; rfl) hread fun he1 he2 => ?_
    rw [step_backoff_calm hr1 he1 hs1, step_backoff_calm hr2 he2 hs2, backoffArm_tick, backoffArm_tick, h]
  case done => rw [step_done hr1 hs1, step_done hr2 hs2, doneArm_congr h hread]
  case code6 | code7 =>
    rw [step_unreachable hr1 (by simp [hs1]), step_unreachable hr2 (by simp [hs2])]
    exact congrArg (fun s => Host.Outcome.next (recover s)) h

end SameRegisters

/-- Settles O46: the two states have the same registers once the inputs are used up. -/
theorem unreadInputsHaveNoEffect : Obligations.UnreadInputsHaveNoEffect := fun _ _ _ _ hagree =>
  step_congr rfl hagree

/-- Settles O20: the error's completion in a busy state; IDLE and DONE do not read `ch_err`. -/
theorem channelErrorEndsRunningOperation : Obligations.ChannelErrorEndsRunningOperation := by
  refine ⟨fun s => step_of_chErr, fun s inp rest e hs => unreadInputsHaveNoEffect s _ _ rest ?_⟩
  rcases hs with hs | hs <;> rw [hs]
  · exact ⟨rfl, rfl, rfl, rfl⟩
  · exact ⟨rfl, rfl⟩

/-! Acceptance and the command frame (R204 to R207). -/

/-- Settles O22: acceptance, for the operation and for the step that presents it; its byte 0 is on offer since
`tx_idx` is 0. -/
theorem acceptanceLatchesOperation : Obligations.AcceptanceLatchesOperation := by
  refine ⟨fun i s hi hs => exec_accept (not_reserved_of_lt_six hi) hs, fun i s hi hs => ?_,
    fun s hr hs hv hop => ?_, fun s => step_idle_wait⟩
  · have hbyte := txData_of_tx (s := accept i.opcode i.span s) rfl (show 0 < 9 by decide)
    exact ⟨_, exec_accept (not_reserved_of_lt_six hi) hs, rfl, hbyte⟩
  · have hres : isReserved (decodeCw s.inputs.cmdOp s.inputs.cmdSpan).opcode = false := by
      rw [opcode_decodeCw, not_reserved_of_lt_six hop]
    rw [step_idle_command hr hs hv, exec_accept hres hs, opcode_decodeCw, span_decodeCw]
    rfl

/-- Settles O23: the completion of a reserved code, for the operation and for the step that presents it. -/
theorem reservedCodeCompletesIllegal : Obligations.ReservedCodeCompletesIllegal := by
  refine ⟨fun span i s hi hs => ?_, fun s hr hs hv hop => ?_⟩
  · rcases hi with rfl | rfl <;> exact exec_illegalOp rfl hs
  · have hres : isReserved (decodeCw s.inputs.cmdOp s.inputs.cmdSpan).opcode = true := by
      rw [opcode_decodeCw]
      rcases hop with h | h <;> rw [h] <;> rfl
    refine ⟨(illegalOp s).tick, ?_, rfl, rfl, rfl, rfl, rfl, rfl, rfl, rfl, rfl, rfl, rfl, rfl, rfl, rfl, rfl⟩
    rw [step_idle_command hr hs hv, exec_illegalOp hres hs]
    rfl

/-- Settles O24: without `tx_ready` the arm keeps the state; with it, the transfer below index 8. -/
theorem txOffersEachByteUntilTaken : Obligations.TxOffersEachByteUntilTaken := by
  intro s hr hc hs
  refine ⟨fun hn => ⟨?_, rfl⟩, fun hready hx => ?_⟩
  · rw [step_tx_calm hr hc hs, txArm_not_ready _ _ hn]
  · have h9 : s.txIdx.toNat < 9 := by bv_omega
    refine ⟨h9, ?_⟩
    rw [step_tx_calm hr hc hs, txArm_next _ _ hready hx h9]
    rfl

/-- Settles O25: the transfer below index 8, with the operation's own frame in the shared cycle. -/
theorem everyOperationSendsItsFrameByte : Obligations.EveryOperationSendsItsFrameByte := by
  intro i s k hk hs hc hready hx
  have hxk : s.txIdx.toNat = k := by rw [hx, BitVec.toNat_ofNat]; omega
  have hlt : s.txIdx < 8 := by rw [BitVec.lt_def, hxk]; exact hk
  have hnext : s.txIdx + 1 = BitVec.ofNat 4 (k + 1) := by rw [hx, BitVec.ofNat_add]; rfl
  subst hxk
  rw [exec_eq_opCycle, opCycle_tx _ _ _ _ hs, unlessChanErr_calm hc, txArm_next _ _ hready hlt (by omega), ← hnext]
  rfl

/-- Settles O26: the ninth transfer hands over byte 8, and `IsRead` decides how the frame ends. -/
theorem ninthTransferEndsFrame : Obligations.NinthTransferEndsFrame := by
  intro s hr hc hs hready hx
  have hstep : step s = .next (endFrame (isRead s.opR) (transfer (cmdFrame s.opR s.spanR)[8] s)).tick := by
    rw [step_tx_calm hr hc hs, txArm_ninth _ _ hready hx]
  refine ⟨fun ho => ?_, fun ho => ?_⟩ <;> rw [hstep, ho] <;> rfl

end Sys2Proof.Machine

namespace Sys2Proof.Machine

/-! The read window, the check and what follows a failed attempt (R208 to R213), and DONE (R215). -/

theorem rxCapture_of_valid {s : State} (h : s.inputs.rxValid = true) : rxCapture s = capture s.inputs.rxData s := by
  rw [rxCapture, if_pos h]

theorem rxCapture_of_not_valid {s : State} (h : s.inputs.rxValid = false) : rxCapture s = s := by
  simp [rxCapture, h]

/-- The entries of the buffer after a capture (R208). -/
theorem capture_read (b : Byte) (s : State) {j : Nat} (h : j < 9) :
    (capture b s).rxbuf[j] = if j = s.rxCnt.toNat then b else s.rxbuf[j] := by
  split
  next hj => exact capture_read_same b s h hj.symm
  next hj => exact capture_read_other b s h (Ne.symm hj)

/-- The capture half of RX writes the buffer and its count alone (R208). -/
theorem rxCapture_keeps (s : State) :
    rxCapture s = { s with rxbuf := (rxCapture s).rxbuf, rxCnt := (rxCapture s).rxCnt } := by
  cases h : s.inputs.rxValid
  · rw [rxCapture_of_not_valid h]
  · rw [rxCapture_of_valid h]
    rfl

/-- RX writes the buffer, its count and the state, nothing else: what the capture leaves, and CHK when the window
closes (R208, R209). -/
theorem rxArm_eq (s : State) : rxArm s = { s with
    rxbuf := (rxCapture s).rxbuf, rxCnt := (rxCapture s).rxCnt
    st := if (rxCapture s).rxCnt = 9 ∨ s.inputs.rxTimeout = true then .chk else s.st } := by
  by_cases hn : (rxCapture s).rxCnt = 9 ∨ s.inputs.rxTimeout = true
  · rw [rxArm, if_pos hn, if_pos hn, rxCapture_keeps]
    rfl
  · rw [rxArm, if_neg hn, if_neg hn]
    exact rxCapture_keeps s

/-- Settles O29: the capture decides buffer and count, and the count after it decides with the timeout whether the
window closes. -/
theorem rxCapturesThenCloses : Obligations.RxCapturesThenCloses := by
  intro s hr hc hs h8
  refine ⟨_, step_rx_calm hr hc hs, ?_⟩
  rw [rxArm_eq]
  refine ⟨fun hv => ?_, fun hv => ?_, fun h => if_pos h, fun hn ht => ?_, rfl, rfl, rfl, rfl, rfl,
    ⟨rfl, rfl, rfl⟩, rfl⟩
  · simp only [tick_rxCnt, tick_rxbuf, rxCapture_of_valid hv, capture_rxCnt]
    exact ⟨by bv_omega, fun j hj => capture_read _ s hj⟩
  · simp only [tick_rxCnt, tick_rxbuf, rxCapture_of_not_valid hv, true_and]
  · have hopen : ¬ ((rxCapture s).rxCnt = 9 ∨ s.inputs.rxTimeout = true) := by
      rintro (h | h)
      · exact hn h
      · simp [ht] at h
    exact (if_neg hopen).trans hs

/-- Settles O32: the check completes the operation with the latched operation's decoder. -/
theorem validResponseFinishesOk : Obligations.ValidResponseFinishesOk := by
  intro s hr hc hs hv
  have hstep : step s = .next (finish .ok (decodeFields s.opR s.rxbuf) s.att s).tick := by
    rw [step_chk_calm hr hc hs, chkArm_valid _ hv]
  exact ⟨_, hstep, by simp⟩

/-- Settles O33: the two branches of `Fail`. -/
theorem invalidResponseFailsAttempt : Obligations.InvalidResponseFailsAttempt := by
  intro s hr hc hs hv
  have hstep : step s = .next (fail s).tick := by rw [step_chk_calm hr hc hs, chkArm_invalid _ hv]
  refine ⟨fun hb => ?_, fun hb => ?_⟩
  · rw [hstep, fail_backoff hb]
    rfl
  · rw [hstep, fail_noBackoff hb]

theorem countBackoff_boCnt_toNat {s : State} (h : s.boCnt ≠ 0) :
    (countBackoff s).boCnt.toNat + 1 = s.boCnt.toNat := by
  rw [countBackoff_boCnt]
  bv_omega

/-- Settles O34: the two branches of BACKOFF; a count that is not 0 goes down without wrapping. -/
theorem backoffCountsDown : Obligations.BackoffCountsDown := by
  intro s hr hc hs
  have hstep := step_backoff_calm hr hc hs
  refine ⟨fun hz => ?_, fun hz => ?_⟩
  · rw [backoffArm_count hz] at hstep
    exact ⟨_, hstep, hs, countBackoff_boCnt_toNat hz, rfl⟩
  · rw [hstep, backoffArm_end hz]

/-- Settles O35: the two branches of `AfterBackoff`; below MAX_ATTEMPTS the attempt number has room to go up. -/
theorem retryOrAbsentAfterBackoff : Obligations.RetryOrAbsentAfterBackoff := by
  intro s
  refine ⟨fun h => afterBackoff_exhausted h, fun h => ?_⟩
  have hagain : ¬ s.params.maxAttempts ≤ s.att := by bv_omega
  have hatt : (s.att + 1).toNat = s.att.toNat + 1 := by bv_omega
  rw [afterBackoff_again hagain]
  exact ⟨s.att + 1, hatt, rfl, txData_of_tx (s := retry s) rfl (show 0 < 9 by decide)⟩

/-- Settles O37: the two branches of DONE, neither of which writes the result. -/
theorem resultIsHeldUntilTaken : Obligations.ResultIsHeldUntilTaken := by
  intro s hr hs
  have hstep := step_done hr hs
  refine ⟨fun h => ?_, fun h => ?_, _, hstep, ?_⟩
  · rw [hstep, doneArm_not_ready h]
  · rw [hstep, doneArm_ready h]
    rfl
  · rcases doneArm_cases s with ⟨-, e⟩ | ⟨-, e⟩ <;> rw [e] <;> exact ⟨rfl, rfl, rfl⟩

/-- Settles O38: no named state has one of the two codes. -/
theorem unreachableCodeGoesToIdle : Obligations.UnreachableCodeGoesToIdle := by
  intro s hr hcode
  refine step_unreachable hr ?_
  rcases hcode with h | h
  · exact .inl (Fsm.code_injective h)
  · exact .inr (Fsm.code_injective h)

theorem busy_iff (st : Fsm) : st.busy = true ↔ st = .tx ∨ st = .rx ∨ st = .chk ∨ st = .backoff := by
  cases st <;> simp [Fsm.busy]

/-- Settles O41: each flag is a test of `st`, and `tx_data` is the latched frame's byte in TX alone. -/
theorem outputEquations : Obligations.OutputEquations := by
  intro s
  refine ⟨beq_iff_eq, busy_iff s.st, beq_iff_eq, fun k hk hs hx => ?_, txData_of_not_tx, beq_iff_eq, beq_iff_eq,
    rfl, rfl, rfl, rfl, rfl, rfl, rfl⟩
  have hxk : s.txIdx.toNat = k := by rw [hx, BitVec.toNat_ofNat]; omega
  subst hxk
  exact txData_of_tx hs hk

/-! The frame of one cycle of any operation: what it leaves unchanged, by its position. -/

/-- What one cycle of an operation keeps, whatever the operation (R204 to R215): each register is written in the
positions listed here only. -/
structure CycleKeeps (s t : State) : Prop where
  params : t.params = s.params
  script : t.script = s.script
  cycle : t.cycle = s.cycle
  latched : s.st ≠ .idle → t.opR = s.opR ∧ t.spanR = s.spanR
  sent : s.st ≠ .tx → t.sent = s.sent
  rxbuf : s.st ≠ .rx → t.rxbuf = s.rxbuf
  rxCnt : s.st ≠ .tx → s.st ≠ .rx → t.rxCnt = s.rxCnt
  boCnt : s.st ≠ .chk → s.st ≠ .backoff → t.boCnt = s.boCnt
  txIdx : s.st = .rx ∨ s.st = .done → t.txIdx = s.txIdx
  att : s.st = .tx ∨ s.st = .rx ∨ s.st = .done → t.att = s.att
  result : t.st ≠ .done ∨ s.st = .done → sameResult s t

/-- A completion of a position other than DONE keeps all but the result and the state. -/
theorem cycleKeeps_finish {s : State} (a : Status) (f : Fields) (n : BitVec 3) (hs : s.st ≠ .done) :
    CycleKeeps s (finish a f n s) where
  params := rfl
  script := rfl
  cycle := rfl
  latched := fun _ => ⟨rfl, rfl⟩
  sent := fun _ => rfl
  rxbuf := fun _ => rfl
  rxCnt := fun _ _ => rfl
  boCnt := fun _ _ => rfl
  txIdx := fun _ => rfl
  att := fun _ => rfl
  result := fun h => absurd rfl (h.resolve_right hs)

/-- A change of the state alone keeps every other register. -/
theorem cycleKeeps_st (s : State) (st : Fsm) : CycleKeeps s { s with st := st } where
  params := rfl
  script := rfl
  cycle := rfl
  latched := fun _ => ⟨rfl, rfl⟩
  sent := fun _ => rfl
  rxbuf := fun _ => rfl
  rxCnt := fun _ _ => rfl
  boCnt := fun _ _ => rfl
  txIdx := fun _ => rfl
  att := fun _ => rfl
  result := fun _ => ⟨rfl, rfl, rfl⟩

theorem cycleKeeps_refl (s : State) : CycleKeeps s s := cycleKeeps_st s s.st

theorem cycleKeeps_accept {s : State} (op : BitVec 3) (span : Half) (hs : s.st = .idle) :
    CycleKeeps s (accept op span s) :=
  { cycleKeeps_st s .tx with
    latched := fun h => absurd hs h
    txIdx := by simp [hs]
    att := by simp [hs] }

theorem cycleKeeps_startOf {s : State} (i : Instr) (hs : s.st = .idle) : CycleKeeps s (startOf i s) := by
  rw [startOf]
  split
  · exact cycleKeeps_finish _ _ _ (by simp [hs])
  · exact cycleKeeps_accept _ _ hs

theorem cycleKeeps_txArm {s : State} (reads : Bool) (f : Frame) (hs : s.st = .tx) :
    CycleKeeps s (txArm reads f s) := by
  rcases txArm_cases reads f s with ⟨-, e⟩ | ⟨-, -, e⟩ | ⟨-, -, -, e⟩ | ⟨-, -, -, e⟩ <;> rw [e]
  · exact cycleKeeps_refl s
  · exact { cycleKeeps_refl s with sent := fun h => absurd hs h, txIdx := by simp [hs] }
  · exact { cycleKeeps_st s .rx with sent := fun h => absurd hs h, rxCnt := fun h => absurd hs h }
  · exact { cycleKeeps_finish .sent zeroFields s.att (s := s) (by simp [hs]) with sent := fun h => absurd hs h }

theorem cycleKeeps_rxArm {s : State} (hs : s.st = .rx) : CycleKeeps s (rxArm s) := by
  rw [rxArm_eq]
  exact { cycleKeeps_st s _ with rxbuf := fun h => absurd hs h, rxCnt := fun _ h => absurd hs h }

theorem cycleKeeps_afterBackoff {s : State} (hs : s.st = .chk ∨ s.st = .backoff) : CycleKeeps s (afterBackoff s) := by
  rcases afterBackoff_cases s with ⟨-, e⟩ | ⟨-, e⟩ <;> rw [e]
  · exact cycleKeeps_finish _ _ _ (by rcases hs with hs | hs <;> simp [hs])
  · exact { cycleKeeps_st s .tx with
      txIdx := by rcases hs with hs | hs <;> simp [hs]
      att := by rcases hs with hs | hs <;> simp [hs] }

theorem cycleKeeps_chkArm {s : State} (fields : Frame → Fields) (hs : s.st = .chk) :
    CycleKeeps s (chkArm fields s) := by
  rcases chkArm_cases fields s with ⟨-, e⟩ | ⟨-, e⟩ <;> rw [e]
  · exact cycleKeeps_finish _ _ _ (by simp [hs])
  · rcases fail_cases s with ⟨-, e⟩ | ⟨-, e⟩ <;> rw [e]
    · exact cycleKeeps_afterBackoff (.inl hs)
    · exact { cycleKeeps_st s .backoff with boCnt := fun h => absurd hs h }

theorem cycleKeeps_backoffArm {s : State} (hs : s.st = .backoff) : CycleKeeps s (backoffArm s) := by
  rcases backoffArm_cases s with ⟨-, e⟩ | ⟨-, e⟩ <;> rw [e]
  · exact cycleKeeps_afterBackoff (.inr hs)
  · exact { cycleKeeps_refl s with boCnt := fun _ h => absurd hs h }

theorem cycleKeeps_doneArm (s : State) : CycleKeeps s (doneArm s) := by
  rcases doneArm_cases s with ⟨-, e⟩ | ⟨-, e⟩ <;> rw [e]
  · exact cycleKeeps_st s .idle
  · exact cycleKeeps_refl s

theorem cycleKeeps_unlessChanErr {s : State} {arm : State → State} (hs : s.st ≠ .done) (h : CycleKeeps s (arm s)) :
    CycleKeeps s (unlessChanErr arm s) := by
  rw [unlessChanErr]
  split
  · exact cycleKeeps_finish _ _ _ hs
  · exact h

theorem cycleKeeps_opCycle (i : Instr) (reads : Bool) (f : Frame) (fields : Frame → Fields) (s : State) :
    CycleKeeps s (opCycle (startOf i) reads f fields s) := by
  cases hs : s.st with
  | idle =>
    rw [opCycle_idle _ _ _ _ hs]
    exact cycleKeeps_startOf i hs
  | tx =>
    rw [opCycle_tx _ _ _ _ hs]
    exact cycleKeeps_unlessChanErr (by simp [hs]) (cycleKeeps_txArm _ _ hs)
  | rx =>
    rw [opCycle_rx _ _ _ _ hs]
    exact cycleKeeps_unlessChanErr (by simp [hs]) (cycleKeeps_rxArm hs)
  | chk =>
    rw [opCycle_chk _ _ _ _ hs]
    exact cycleKeeps_unlessChanErr (by simp [hs]) (cycleKeeps_chkArm _ hs)
  | backoff =>
    rw [opCycle_backoff _ _ _ _ hs]
    exact cycleKeeps_unlessChanErr (by simp [hs]) (cycleKeeps_backoffArm hs)
  | done =>
    rw [opCycle_done _ _ _ _ hs]
    exact cycleKeeps_doneArm s
  | code6 | code7 =>
    rw [opCycle_unreachable _ _ _ _ (by simp [hs])]
    exact cycleKeeps_st s .idle

theorem exec_next (i : Instr) (s : State) : ∃ t, exec i s = .next t ∧ CycleKeeps s t :=
  ⟨_, exec_eq_opCycle i s, cycleKeeps_opCycle i _ _ _ s⟩

/-- Settles O39: the frame of the shared cycle, and that a reserved code is not latched. -/
theorem operationCycleFrame : Obligations.OperationCycleFrame := by
  intro i s
  obtain ⟨t, ht, h⟩ := exec_next i s
  refine ⟨t, ht, h.params, h.script, h.cycle, h.latched, h.sent, h.rxbuf, h.rxCnt, h.boCnt, h.txIdx, h.att, h.result,
    fun hi hs => ?_⟩
  have hres : isReserved i.opcode = true := by rcases hi with hi | hi <;> rw [hi] <;> rfl
  rw [exec_illegalOp hres hs] at ht
  cases ht
  exact ⟨rfl, rfl, rfl, rfl⟩

end Sys2Proof.Machine

namespace Sys2Proof.Machine

/-! Waits and backoffs as runs (R212, R219). -/

/-- The first of `n + 1` scripted cycles, and the `n` after it. -/
theorem script_head_tail {P : Inputs → Prop} {n : Nat} {s : State} (hlen : n + 1 ≤ s.script.length)
    (hp : ∀ inp ∈ s.script.take (n + 1), P inp) :
    s.script = s.inputs :: s.script.tail ∧ P s.inputs ∧ n ≤ s.script.tail.length ∧
      ∀ inp ∈ s.script.tail.take n, P inp := by
  match hsc : s.script with
  | [] => simp [hsc] at hlen
  | inp :: rest =>
    rw [hsc] at hlen hp
    rw [inputs_of_script s hsc]
    exact ⟨rfl, hp inp (by simp), by simpa using hlen, fun x hx => hp x (List.mem_cons_of_mem _ hx)⟩

/-- A wait: if every cycle in state `st` whose inputs meet `P` only counts the edge, then `n` such cycles only count
`n` edges. -/
theorem run_wait {st : Fsm} {P : Inputs → Prop}
    (hwait : ∀ s : State, s.st = st → P s.inputs → step s = .next s.tick) (n : Nat) :
    ∀ s : State, s.st = st → n ≤ s.script.length → (∀ inp ∈ s.script.take n, P inp) →
      core.run n s = .next { s with script := s.script.drop n, cycle := s.cycle + n } := by
  induction n with
  | zero => exact fun s _ _ _ => run_zero s
  | succ n ih =>
    intro s hs hlen hp
    obtain ⟨-, hin, hrest, hprest⟩ := script_head_tail hlen hp
    rw [run_succ n (hwait s hs hin), ih s.tick hs hrest hprest, tick_script, List.drop_tail, tick_cycle,
      Nat.add_right_comm]
    rfl

theorem run_wait_keeps {st : Fsm} {P : Inputs → Prop}
    (hwait : ∀ s : State, s.st = st → P s.inputs → step s = .next s.tick) {n : Nat} {s : State} (hs : s.st = st)
    (hlen : n ≤ s.script.length) (hp : ∀ inp ∈ s.script.take n, P inp) :
    ∃ t, core.run n s = .next t ∧ sameRegisters s t ∧ t.sent = s.sent :=
  ⟨_, run_wait hwait n s hs hlen hp, ⟨rfl, rfl, rfl, rfl, rfl, rfl, rfl, rfl, rfl, rfl, rfl⟩, rfl⟩

theorem length_delivered (rxs : List Inputs) : (delivered rxs).length = rxs.countP (·.rxValid) := by
  rw [delivered, List.length_map, List.countP_eq_length_filter]

/-- Settles O48: the waits of IDLE, DONE and TX only count edges; an open window short of nine bytes is the waiting
part of a read window (`rx_waits`). -/
theorem waitsNeverEndByThemselves : Obligations.WaitsNeverEndByThemselves := by
  intro n s hlen hrst
  refine ⟨fun hs hv => ?_, fun hs hr => ?_, fun hs ht => ?_, fun hs h8 hp => ?_⟩
  · exact run_wait_keeps (P := fun inp => inp.rst = false ∧ inp.cmdValid = false)
      (fun t ht h => step_idle_wait h.1 ht h.2) hs hlen fun inp hi => ⟨hrst inp hi, hv inp hi⟩
  · exact run_wait_keeps (P := fun inp => inp.rst = false ∧ inp.rspReady = false)
      (fun t ht h => by rw [step_done h.1 ht, doneArm_not_ready h.2]) hs hlen
      fun inp hi => ⟨hrst inp hi, hr inp hi⟩
  · exact run_wait_keeps (P := fun inp => inp.rst = false ∧ inp.chErr = false ∧ inp.txReady = false)
      (fun t ht' h => by rw [step_tx_calm h.1 h.2.1 ht', txArm_not_ready _ _ h.2.2]) hs hlen
      fun inp hi => ⟨hrst inp hi, ht inp hi⟩
  · have hcalm : ∀ inp ∈ s.script.take n, calm inp := fun inp hi => ⟨hrst inp hi, (hp inp hi).1⟩
    have hwindow := rx_waits (s.script.drop n) (s.script.take n) s _ hs (List.take_append_drop n _).symm hcalm
      (fun inp hi => (hp inp hi).2) rfl (by rw [length_delivered]; exact h8)
    rw [List.length_take, Nat.min_eq_left hlen, length_delivered] at hwindow
    refine ⟨_, hwindow.1, hs, ?_⟩
    show (BitVec.ofNat 4 _).toNat = _
    rw [BitVec.toNat_ofNat]
    omega

/-- `k` cycles of a backoff that has at least `k` more to wait. -/
theorem run_backoff (k : Nat) : ∀ s : State, s.st = .backoff → k ≤ s.boCnt.toNat → k ≤ s.script.length →
    (∀ inp ∈ s.script.take k, calm inp) →
    ∃ t, core.run k s = .next t ∧ t.st = .backoff ∧ t.att = s.att ∧ t.sent = s.sent := by
  induction k with
  | zero => exact fun s hs _ _ _ => ⟨s, run_zero s, hs, rfl, rfl⟩
  | succ k ih =>
    intro s hs hk hlen hcalm
    obtain ⟨-, ⟨hr, hc⟩, hrest, hcrest⟩ := script_head_tail hlen hcalm
    have hz : s.boCnt ≠ 0 := fun h => by simp [h] at hk
    have hcnt := countBackoff_boCnt_toNat hz
    have hstep : step s = .next (countBackoff s).tick := by rw [step_backoff_calm hr hc hs, backoffArm_count hz]
    rw [run_succ k hstep]
    exact ih _ hs (by rw [tick_boCnt]; omega) hrest hcrest

theorem afterBackoff_st (s : State) : (afterBackoff s).st = .tx ∨ (afterBackoff s).st = .done := by
  rcases afterBackoff_cases s with ⟨-, e⟩ | ⟨-, e⟩ <;> rw [e]
  · exact .inr rfl
  · exact .inl rfl

/-- Settles O36: the failing edge loads BACKOFF_CYCLES - 1, so that many cycles more are spent in BACKOFF
(`run_backoff`), and the whole failure ends in what follows a backoff (`fail_phase`). -/
theorem backoffLastsExactlyBackoffCycles : Obligations.BackoffLastsExactlyBackoffCycles := by
  intro s hs hv hlen hcalm
  obtain ⟨hsc, ⟨hr, hc⟩, hrest, hwaits⟩ := script_head_tail hlen hcalm
  refine ⟨fun k h1 hk => ?_, ?_⟩
  · obtain ⟨k, rfl⟩ : ∃ j, k = j + 1 := ⟨k - 1, by omega⟩
    have hb : s.params.backoffCycles ≠ 0 := fun h => by simp [h] at hk
    have hstep : step s = .next (startBackoff s).tick := by
      rw [step_chk_calm hr hc hs, chkArm_invalid _ hv, fail_backoff hb]
    have hleft : k ≤ (startBackoff s).tick.boCnt.toNat := by
      rw [tick_boCnt, startBackoff_boCnt]
      bv_omega
    have hk' : k ≤ s.params.backoffCycles.toNat := by omega
    rw [run_succ k hstep]
    exact run_backoff k _ rfl hleft (hk'.trans hrest) fun inp hi =>
      hwaits inp (List.take_subset_take_left _ hk' hi)
  · have hcount : (s.script.tail.take s.params.backoffCycles.toNat).length = s.params.backoffCycles.toNat := by
      rw [List.length_take, Nat.min_eq_left hrest]
    obtain ⟨st, bo, cycle, hpass⟩ := fail_phase (rest := s.script.tail.drop s.params.backoffCycles.toNat) hs
      (by rw [List.take_append_drop, ← hsc]) hv ⟨hr, hc⟩ hcount hwaits
    rw [hcount, Nat.add_comm] at hpass
    exact ⟨_, hpass.1, afterBackoff_st _⟩

/-- Settles O56: all failed attempts but the last lead to the next one; after the last, none is left. -/
theorem retryBound : Obligations.RetryBound := by
  intro i s cmd failures rest hread hlegal hs hp hlen hfail hsc
  have hmax := one_le_maxAttempts hlegal
  obtain ⟨front, last, rfl⟩ : ∃ front last, failures = front ++ [last] := by
    rcases List.eq_nil_or_concat failures with rfl | ⟨front, last, h⟩
    · rw [List.length_nil] at hlen
      exact absurd hmax (by bv_omega)
    · exact ⟨front, last, by simpa using h⟩
  rw [List.length_append, List.length_singleton] at hlen
  have hsc' : s.script = cmd :: (front.flatten ++ (last ++ rest)) := by simpa using hsc
  have haccept := accept_phase hs hp (not_reserved_of_isRead hread) hsc'
  obtain ⟨t, hfront, hstart⟩ := failedAttempts_then_next hread front (startsAttempt_accept hsc')
    (fun a ha => hfail a (by simp [ha])) (by omega)
  obtain ⟨u, hlast, hin⟩ := failedAttempt_phase hstart hread (hfail last (by simp))
  have hatt : u.att = s.params.maxAttempts := BitVec.eq_of_toNat_eq (by rw [hin.att]; omega)
  rw [afterBackoff_exhausted (by rw [hin.params, hatt]; exact BitVec.le_refl _)] at hlast
  have hcycles : 1 + (front ++ [last]).flatten.length = 1 + front.flatten.length + last.length := by
    simp; omega
  rw [hcycles, ← hlen]
  exact ⟨_, ((haccept.trans hfront).trans hlast).firstDone rfl, rfl, rfl, hatt, by simpa using hin.sent⟩

end Sys2Proof.Machine

namespace Sys2Proof.Machine

/-! What was sent during one operation (R217): an invariant of its states, and the account each completion gives. -/

/-- How many bytes of the attempt in progress have been sent: those before `tx_idx`, or the whole frame (R34, R207). -/
def State.attemptBytes (s : State) : Nat := if s.st = .tx then s.txIdx.toNat else 9

theorem attemptBytes_of_tx {s : State} (hs : s.st = .tx) : s.attemptBytes = s.txIdx.toNat := if_pos hs

theorem attemptBytes_of_not_tx {s : State} (hs : s.st ≠ .tx) : s.attemptBytes = 9 := if_neg hs

/-- The record after `n - 1` whole frames of the operation accepted in `s0` and `m` bytes of the next (R61). -/
def sentSoFar (s0 : State) (n : BitVec 3) (m : Nat) : List Byte :=
  s0.sent ++ framesOf (offeredFrame s0) (n.toNat - 1) ++ (offeredFrame s0).toList.take m

/-- A whole frame more: nothing is left of it but the count (R217). -/
theorem sentSoFar_whole (s0 : State) {n : BitVec 3} (hn : 1 ≤ n) :
    sentSoFar s0 n 9 = s0.sent ++ framesOf (offeredFrame s0) n.toNat := by
  have hpos : n.toNat = n.toNat - 1 + 1 := by bv_omega
  have hall : (offeredFrame s0).toList.take 9 = (offeredFrame s0).toList := List.take_of_length_le (by simp)
  rw [sentSoFar, hall, List.append_assoc, framesOf_append_frame, ← hpos]

/-- One byte more: byte `k` of the frame follows the `k` bytes before it. -/
theorem sentSoFar_append_byte (s0 : State) (n : BitVec 3) {k : Nat} (h : k < 9) :
    sentSoFar s0 n k ++ [(offeredFrame s0)[k]] = sentSoFar s0 n (k + 1) := by
  rw [sentSoFar, sentSoFar, List.append_assoc, List.take_add_one]
  simp [h]

/-- `s` is a running state of the operation accepted in `s0`: `att - 1` whole frames and the bytes of the attempt in
progress have been sent (R217). -/
structure Underway (s0 s : State) : Prop where
  busy : s.st.busy = true
  opR : s.opR = s0.inputs.cmdOp
  spanR : s.spanR = s0.inputs.cmdSpan
  params : s.params = s0.params
  att : s.attInRange
  in_tx : s.st = .tx → s.txIdx ≤ 8
  /-- Only a read goes past TX, and only a read makes a second attempt. -/
  reads : isRead s0.inputs.cmdOp = true ∨ (s.st = .tx ∧ s.att = 1)
  sent : s.sent = sentSoFar s0 s.att s.attemptBytes

/-- What a completion with count `n` and the bytes `sent` says, status by status (R217, R246). -/
def AccountOf (s0 : State) (n : BitVec 3) (sent : List Byte) : Status → Prop
  | .none => False
  | .ok => isRead s0.inputs.cmdOp = true ∧ 1 ≤ n ∧ n ≤ s0.params.maxAttempts ∧
      sent = s0.sent ++ framesOf (offeredFrame s0) n.toNat
  | .absent => isRead s0.inputs.cmdOp = true ∧ n = s0.params.maxAttempts ∧
      sent = s0.sent ++ framesOf (offeredFrame s0) n.toNat
  | .sent => isRead s0.inputs.cmdOp = false ∧ n = 1 ∧ sent = s0.sent ++ framesOf (offeredFrame s0) 1
  | .chanErr => 1 ≤ n ∧ n ≤ s0.params.maxAttempts ∧ ∃ m ≤ 9, sent = sentSoFar s0 n m
  | .illegalOp => isReserved s0.inputs.cmdOp = true ∧ n = 0 ∧ sent = s0.sent

/-- The operation accepted in `s0` is running, or it is complete and its account is right. -/
def OperationInv (s0 s : State) : Prop :=
  Underway s0 s ∨ (s.st = .done ∧ AccountOf s0 s.resAtt s.sent s.resStatus)

theorem operationInv_tick {s0 s : State} (h : OperationInv s0 s) : OperationInv s0 s.tick :=
  h.imp (fun h => { h with }) id

section Underway

variable {s0 s : State}

theorem underway_accept (hp : s0.params.legal = true) :
    Underway s0 (accept s0.inputs.cmdOp s0.inputs.cmdSpan s0) where
  busy := rfl
  opR := rfl
  spanR := rfl
  params := rfl
  att := ⟨BitVec.le_refl _, one_le_maxAttempts hp⟩
  in_tx := fun _ => by simp
  reads := .inr ⟨rfl, rfl⟩
  sent := by simp [attemptBytes_of_tx (accept_st _ _ _), sentSoFar, framesOf]

theorem account_illegalOp (hres : isReserved s0.inputs.cmdOp = true) :
    AccountOf s0 0 s0.sent .illegalOp := ⟨hres, rfl, rfl⟩

variable (h : Underway s0 s)
include h

theorem Underway.isRead_of_not_tx (hs : s.st ≠ .tx) : isRead s0.inputs.cmdOp = true :=
  h.reads.resolve_right fun hr => hs hr.1

theorem Underway.txIdx_last (hs : s.st = .tx) (hx : ¬ s.txIdx < 8) : s.txIdx.toNat + 1 = 9 := by
  have := h.in_tx hs
  bv_omega

theorem Underway.attemptBytes_le : s.attemptBytes ≤ 9 := by
  by_cases hs : s.st = .tx
  · have := h.in_tx hs
    rw [attemptBytes_of_tx hs]
    bv_omega
  · rw [attemptBytes_of_not_tx hs]

/-- Once the frame is out, `att` whole frames have been sent. -/
theorem Underway.sent_whole (hs : s.st ≠ .tx) : s.sent = s0.sent ++ framesOf (offeredFrame s0) s.att.toNat := by
  rw [h.sent, attemptBytes_of_not_tx hs, sentSoFar_whole s0 h.att.1]

/-- A transfer in TX sends one byte of the attempt more. -/
theorem Underway.sent_transfer (hs : s.st = .tx) :
    (transfer (frameByte (cmdFrame s.opR s.spanR) s.txIdx) s).sent = sentSoFar s0 s.att (s.txIdx.toNat + 1) := by
  have h9 : s.txIdx.toNat < 9 := by
    have := h.in_tx hs
    bv_omega
  have hframe : cmdFrame s.opR s.spanR = offeredFrame s0 := by rw [h.opR, h.spanR, offeredFrame]
  rw [transfer_sent, h.sent, attemptBytes_of_tx hs, hframe, frameByte_of_lt _ h9, sentSoFar_append_byte s0 _ h9]

theorem underway_nextByte (hs : s.st = .tx) (hx : s.txIdx < 8) :
    Underway s0 (nextByte (transfer (frameByte (cmdFrame s.opR s.spanR) s.txIdx) s)) :=
  have hnext : (s.txIdx + 1).toNat = s.txIdx.toNat + 1 := by bv_omega
  { h with
    in_tx := fun _ => by rw [nextByte_txIdx, transfer_txIdx]; bv_omega
    sent := by
      rw [attemptBytes_of_tx (by exact hs), nextByte_txIdx, transfer_txIdx, hnext]
      exact h.sent_transfer hs }

theorem underway_openWindow (hs : s.st = .tx) (hx : ¬ s.txIdx < 8) (ho : isRead s.opR = true) :
    Underway s0 (openWindow (transfer (frameByte (cmdFrame s.opR s.spanR) s.txIdx) s)) :=
  { h with
    busy := rfl
    in_tx := nofun
    reads := .inl (h.opR ▸ ho)
    sent := by
      rw [attemptBytes_of_not_tx (by simp), ← h.txIdx_last hs hx]
      exact h.sent_transfer hs }

/-- A change past TX of the state and of registers the account does not speak of. -/
theorem underway_past_tx {st : Fsm} (cnt : BitVec 4) (buf : Frame) (bo : BitVec 24) (hs : s.st ≠ .tx)
    (hb : st.busy = true) (ht : st ≠ .tx) :
    Underway s0 { s with st := st, rxCnt := cnt, rxbuf := buf, boCnt := bo } :=
  { h with
    busy := hb
    in_tx := fun h => absurd h ht
    reads := .inl (h.isRead_of_not_tx hs)
    sent := by
      rw [attemptBytes_of_not_tx (by exact ht), ← attemptBytes_of_not_tx hs]
      exact h.sent }

theorem underway_retry (hs : s.st ≠ .tx) (ha : ¬ s.params.maxAttempts ≤ s.att) : Underway s0 (retry s) :=
  have hnext : (s.att + 1).toNat - 1 = s.att.toNat := by bv_omega
  { h with
    busy := rfl
    att := ⟨by rw [retry_att]; bv_omega, by rw [retry_att, retry_params]; bv_omega⟩
    in_tx := fun _ => by simp
    reads := .inl (h.isRead_of_not_tx hs)
    sent := by
      rw [attemptBytes_of_tx (retry_st s), retry_sent, retry_att, sentSoFar, hnext, h.sent_whole hs]
      simp }

theorem Underway.account_chanErr : AccountOf s0 s.att s.sent .chanErr :=
  ⟨h.att.1, h.params ▸ h.att.2, s.attemptBytes, h.attemptBytes_le, h.sent⟩

theorem Underway.account_ok (hs : s.st ≠ .tx) : AccountOf s0 s.att s.sent .ok :=
  ⟨h.isRead_of_not_tx hs, h.att.1, h.params ▸ h.att.2, h.sent_whole hs⟩

theorem Underway.account_absent (hs : s.st ≠ .tx) (ha : s.params.maxAttempts ≤ s.att) :
    AccountOf s0 s.att s.sent .absent :=
  ⟨h.isRead_of_not_tx hs, h.params ▸ BitVec.le_antisymm h.att.2 ha, h.sent_whole hs⟩

theorem Underway.account_sent (hs : s.st = .tx) (hx : ¬ s.txIdx < 8) (ho : isRead s.opR = false) :
    AccountOf s0 s.att (transfer (frameByte (cmdFrame s.opR s.spanR) s.txIdx) s).sent .sent := by
  have hread : isRead s0.inputs.cmdOp = false := h.opR ▸ ho
  have hatt : s.att = 1 := (h.reads.resolve_left (by simp [hread])).2
  refine ⟨hread, hatt, ?_⟩
  rw [h.sent_transfer hs, h.txIdx_last hs hx, sentSoFar_whole s0 h.att.1, hatt]
  rfl

/-- One edge of a running operation: it goes on, or it completes with its account. -/
theorem Underway.stepCase {u : State} (hr : s.inputs.rst = false) (c : StepCase s u) : OperationInv s0 u := by
  have hb := h.busy
  cases c with
  | reset hrst => simp [hr] at hrst
  | channelError => exact .inr ⟨rfl, h.account_chanErr⟩
  | txNext _ _ hs _ hx => exact .inl (underway_nextByte h hs hx)
  | txToWindow _ _ hs _ hx ho => exact .inl (underway_openWindow h hs hx ho)
  | txSent _ _ hs _ hx ho => exact .inr ⟨rfl, h.account_sent hs hx ho⟩
  | rxCaptureClose _ _ hs | rxClose _ _ hs => exact .inl (underway_past_tx h _ _ _ (by simp [hs]) rfl nofun)
  | rxCaptureStay _ _ hs | backoffCount _ _ hs =>
    exact .inl (underway_past_tx h _ _ _ (by simp [hs]) hb (by simp [hs]))
  | valid _ _ hs => exact .inr ⟨rfl, h.account_ok (by simp [hs])⟩
  | failedBackoff _ _ hs => exact .inl (underway_past_tx h _ _ _ (by simp [hs]) rfl nofun)
  | failedAbsent _ _ hs _ _ ha => exact .inr ⟨rfl, h.account_absent (by simp [hs]) ha⟩
  | failedRetry _ _ hs _ _ ha => exact .inl (underway_retry h (by simp [hs]) ha)
  | backoffAbsent _ _ hs _ ha => exact .inr ⟨rfl, h.account_absent (by simp [hs]) ha⟩
  | backoffRetry _ _ hs _ ha => exact .inl (underway_retry h (by simp [hs]) ha)
  | txWait | rxWait => exact .inl h
  | idleWait _ hs | illegal _ hs | accepted _ hs | taken _ hs | held _ hs => simp [hs, Fsm.busy] at hb
  | recovered _ hs => rcases hs with hs | hs <;> simp [hs, Fsm.busy] at hb

end Underway

/-- The edge that takes the command: the operation is running, or a reserved code is complete. -/
theorem operationInv_of_command {s0 s : State} (hp : s0.params.legal = true) (hs : s0.st = .idle)
    (hr : s0.inputs.rst = false) (hv : s0.inputs.cmdValid = true) (h : step s0 = .next s) : OperationInv s0 s := by
  rw [step_idle_command hr hs hv] at h
  cases hi : isReserved s0.inputs.cmdOp
  · rw [exec_accept (by rw [opcode_decodeCw, hi]) hs, opcode_decodeCw, span_decodeCw] at h
    cases h
    exact operationInv_tick (.inl (underway_accept hp))
  · rw [exec_illegalOp (by rw [opcode_decodeCw, hi]) hs] at h
    cases h
    exact .inr ⟨rfl, account_illegalOp hi⟩

theorem InOperation.operationInv {s0 s : State} (hp : s0.params.legal = true) (h : InOperation s0 s) :
    OperationInv s0 s := by
  induction h with
  | accepted s hs hr hv hstep => exact operationInv_of_command hp hs hr hv hstep
  | cycle s t _ hb hr hstep ih =>
    obtain ⟨u, hu, rfl⟩ := step_cases hstep
    rcases ih with hrun | ⟨hdone, -⟩
    · exact operationInv_tick (hrun.stepCase hr hu)
    · simp [hdone, Fsm.busy] at hb

/-- Settles O53: the completed operation's account, read off status by status. -/
theorem attemptAccounting : Obligations.AttemptAccounting := by
  intro s0 s hp hin hdone
  have hacc : AccountOf s0 s.resAtt s.sent s.resStatus := by
    rcases hin.operationInv hp with hrun | ⟨-, hacc⟩
    · have hb := hrun.busy
      simp [hdone, Fsm.busy] at hb
    · exact hacc
  refine ⟨fun e => ?_, fun e => ?_, fun e => ?_, fun e => ?_, fun e => ?_, fun e => ?_⟩ <;> rw [e] at hacc <;>
    exact hacc

end Sys2Proof.Machine
